-- ==== Sys2Proof/Word.lean ====
section
/-! DEFINITION. The two word types of the machine (spec/00_scope.md R5, R7: DATA_W = 8, ADDR_W = 16).
Their `+` and `-` are the wrapping `+₈`, `+₁₆` and `−₁₆` of R8; the exact `+` of R8 is that of `Nat` and `Int`. -/

namespace Sys2Proof

/-- A byte, a value in 0..255 (R7): A, X, Y, every memory byte, every opcode. -/
abbrev Byte := BitVec 8

/-- A word, a value in 0..65535 (R7): PC, SP, every 16-bit operand. -/
abbrev Word := BitVec 16

end Sys2Proof
end

