-- ==== Sys2Proof/Machine/Bits.lean ====
section
/-! DEFINITION. Byte and word conversions of spec/00_scope.md R7; the byte order of R45 is decided here and in the two
users that store and fetch a word (Machine/Ops.lean). -/

namespace Sys2Proof

/-- `lo8(w) = w[7:0]` (R7). -/
def lo8 (w : Word) : Byte := w.extractLsb' 0 8

/-- `hi8(w) = w[15:8]` (R7). -/
def hi8 (w : Word) : Byte := w.extractLsb' 8 8

/-- `zext_16(b)`: the byte as a word with bits 15..8 zero (R7). -/
def zext16 (b : Byte) : Word := b.setWidth 16

/-- `low | (high << 8)`: two bytes as a word, the first low (R7, R45, R62). -/
def joinBytes (lo hi : Byte) : Word := zext16 lo ||| (zext16 hi <<< 8)

/-- Byte `k` of a number whose bit 0 is the least significant bit of the first byte. -/
def byteOfNat (w k : Nat) : Byte := BitVec.ofNat 8 (w / 2 ^ (8 * k))

/-- The longest instruction (ABS16, 3 bytes) as bytes in increasing address order, from its lowest `nbits` bits numbered as
spec/opcode_table.json numbers them; the bits above are zero. -/
def tableBytes (nbits w : Nat) : List Byte :=
  [byteOfNat (w % 2 ^ nbits) 0, byteOfNat (w % 2 ^ nbits) 1, byteOfNat (w % 2 ^ nbits) 2]

end Sys2Proof
end

