-- ==== Sys2Proof/Config.lean ====
section
/-! DEFINITION. The parameters spec/00_scope.md R6 leaves open: "A model takes each as an argument".
The values the spec gives as their defaults stand in Sys2Proof/Machine/Defaults.lean. -/

namespace Sys2Proof

/-- `Budget`, the type of the cycle budget (R6, D10; log entry 17). -/
inductive Budget where
  /-- A mathematical integer with no width, the spec's default. -/
  | integer
  /-- A signed counter of `width` bits, which wraps for budgets beyond its range (D10, column "errs if wrong"). -/
  | signed (width : Nat)
  deriving DecidableEq, Repr

/-- The open parameters of R6 (log entry 1).
They are fixed for one machine: State carries them and no step changes them. -/
structure Config where
  /-- `RESET_PC`, the fixed reset vector address loaded into PC by reset (D1). -/
  resetPc : Word
  /-- `RESET_SP`, the fixed starting page address loaded into SP by reset (D2). -/
  resetSp : Word
  /-- `OPC_LDA_ZP`, the opcode byte of LDA zero-page (D3). -/
  opcLdaZp : Byte
  /-- `OPC_LDA_ZPX`, the opcode byte of LDA zero-page,X (D4). -/
  opcLdaZpX : Byte
  /-- `JSR_EXTRA_CYCLES`, a natural number: JSR's cost beyond its memory accesses (D6). -/
  jsrExtraCycles : Nat
  /-- `Budget`, the type of the cycle budget (D10). -/
  budget : Budget
  deriving DecidableEq, Repr

end Sys2Proof
end

