-- ==== Sys2Proof/Machine/Counter.lean ====
section
/-! DEFINITION. What the cycle budget's counter holds, for each type the parameter `Budget` admits (spec/00_scope.md R6,
spec/10_state.md R32, D10). -/

namespace Sys2Proof

/-- The value the counter holds once an integer is put into it: the integer itself with the default type, and the value in
two's complement of its last `width` bits with a signed counter. CYC is written through this alone. -/
def Config.narrow (cfg : Config) (n : Int) : Int :=
  match cfg.budget with
  | .integer => n
  | .signed width => n.bmod (2 ^ width)

end Sys2Proof
end

