-- ==== Sys2Proof/Machine/Defaults.lean ====
section
/-! DEFINITION. The opcode values the source fixes (spec/00_scope.md R5) and the defaults the spec chooses for the
parameters it leaves open (R6). -/

namespace Sys2Proof

/-- `OPC_LDA_IMM` = 0xA9 (R5). -/
def opcLdaImm : Byte := 0xA9

/-- `OPC_JSR` = 0x20 (R5). -/
def opcJsr : Byte := 0x20

/-- The third column of R6's table, used by every example of spec/95_test_vectors.md.
DESIGN CHOICE, unsafe: the spec's own defaults, not the source's (log entry 1). -/
def defaultConfig : Config where
  resetPc := 0xFFFC
  resetSp := 0x0100
  opcLdaZp := 0xA5
  opcLdaZpX := 0xB5
  jsrExtraCycles := 1
  budget := .integer

end Sys2Proof
end

