-- ==== Sys2Proof/Machine/State.lean ====
section
/-! DEFINITION. The machine's state as plain data (spec/10_state.md R20 to R38), what it exchanges with its host
(spec/70_reset_and_hazards.md R156), and the state after reset. -/

namespace Sys2Proof.Machine

/-- The fatal error kind of spec/60_exceptions.md R130, kept in FAULT and in a run's error result.
R132 gives the state after it, so `step` takes it as a next state and never ends in a fault outcome. -/
inductive Fault where
  /-- `OutOfRange(addr)`: raised by MemRead and MemWrite at an address ≥ 65536 (R41, R42). Safe: the address never wraps. -/
  | outOfRange (addr : Nat)
  deriving DecidableEq, Repr

/-- Why a step has no meaning. -/
inductive Refusal where
  /-- Raised by `exec` for an instruction that has no meaning yet (none is left). Safe: nothing is claimed of it. -/
  | notModelled (mnemonic : String)
  /-- Raised by a host request other than reset while INIT is false (R34, R152). Safe: the spec gives it no meaning. -/
  | beforeFirstReset
  deriving DecidableEq, Repr

/-- The loop state RUN (R31): Running or Halted, no other. -/
inductive RunState where
  | running | halted
  deriving DecidableEq, Repr

/-- The result of a run (R90, R94). -/
inductive RunResult where
  | halted
  | error (f : Fault)
  deriving DecidableEq, Repr

/-- One `UnhandledInstruction(op, addr)` event of the report output (R35, R133). -/
structure Report where
  op : Byte
  addr : Word
  deriving DecidableEq, Repr

/-- The 8-bit registers the host names (R156). -/
inductive ByteReg where
  | a | x | y
  deriving DecidableEq, Repr

/-- The 16-bit registers the host names (R156). -/
inductive WordReg where
  | pc | sp
  deriving DecidableEq, Repr

/-- The seven flags the host names (R26, R156): carry, zero, interrupt-disable, decimal-mode, break, overflow, negative. -/
inductive FlagName where
  | c | z | i | d | b | v | n
  deriving DecidableEq, Repr

/-- What the host can ask for (R156, column "interaction"). -/
inductive HostRequest where
  | reset
  | loadByte (addr : Nat) (v : Byte)
  | readByte (addr : Nat)
  | writeByteReg (r : ByteReg) (v : Byte)
  | writeWordReg (r : WordReg) (v : Word)
  | writeFlag (f : FlagName) (v : Bool)
  | readByteReg (r : ByteReg)
  | readWordReg (r : WordReg)
  | readFlag (f : FlagName)
  | run (budget : Int)
  deriving DecidableEq, Repr

/-- What the host gets back (R156, last column); an interaction with nothing there gives no reply. -/
inductive HostReply where
  | loaded
  | byte (v : Byte)
  | outOfRange (addr : Nat)
  | byteReg (r : ByteReg) (v : Byte)
  | wordReg (r : WordReg) (v : Word)
  | flag (f : FlagName) (v : Bool)
  | ran (result : RunResult) (cyc : Int)
  deriving DecidableEq, Repr

/-- Memory: address and byte pairs in one canonical form (`Memory.wf`); an unlisted address reads as `Memory.unlisted`. -/
abbrev Memory := List Host.Cell

/-- The complete state of R38, and with it the model's own fields: the machine's parameters (log entry 1), the host's
requests still to come and the two outputs (log entries 3 and 4). -/
structure State where
  /-- A, the accumulator (R20). -/
  a : Byte
  /-- X, the index register LDA zp,X reads (R21). -/
  x : Byte
  /-- Y (R22). -/
  y : Byte
  /-- PC, the address of the next instruction byte to fetch (R24). -/
  pc : Word
  /-- SP, a full memory address (R25). -/
  sp : Word
  /-- C, carry (R26, R28). -/
  flagC : Bool
  /-- Z, zero (R26, R27). -/
  flagZ : Bool
  /-- I, interrupt-disable (R26, R28). -/
  flagI : Bool
  /-- D, decimal-mode (R26, R28). -/
  flagD : Bool
  /-- B, break (R26, R28). -/
  flagB : Bool
  /-- V, overflow (R26, R28). -/
  flagV : Bool
  /-- N, negative (R26, R27). -/
  flagN : Bool
  /-- RUN, the loop state (R31). -/
  run : RunState
  /-- CYC, the value of the cycle budget's counter (R32): any integer with the default `Budget`, else one the counter holds. -/
  cyc : Int
  /-- FAULT, the fault record (R33). -/
  fault : Option Fault
  /-- INIT, whether reset has happened since power-up (R34). -/
  init : Bool
  /-- The memory (R36, R40). -/
  mem : Memory
  /-- The parameters of R6, constant for one machine. -/
  cfg : Config
  /-- The host's requests still to come, the next one first (R156). -/
  requests : List HostRequest
  /-- What the host has got back, the latest last (R156). -/
  replies : List HostReply
  /-- The report output, append-only, in execution order (R35). -/
  reports : List Report
  deriving DecidableEq, Repr

/-- The machine right after reset (R150): PC and SP at their parameters, registers and flags zero, memory all zeros,
FAULT none, RUN Halted, INIT true.
Reset gives CYC no value (R32); it stands at 0 here, DESIGN CHOICE, unsafe (log entry 2). -/
def State.reset : State where
  a := 0
  x := 0
  y := 0
  pc := defaultConfig.resetPc
  sp := defaultConfig.resetSp
  flagC := false
  flagZ := false
  flagI := false
  flagD := false
  flagB := false
  flagV := false
  flagN := false
  run := .halted
  cyc := 0
  fault := none
  init := true
  mem := []
  cfg := defaultConfig
  requests := []
  replies := []
  reports := []

end Sys2Proof.Machine
end

