-- ==== Sys2Proof/Machine/Memory.lean ====
section
/-! DEFINITION. The memory as data: what one byte reads as, one byte written, and the canonical form
(spec/20_memory.md R40 to R48). The bounds checks of R41 and R42 stand in Machine/Ops.lean. -/

namespace Sys2Proof.Machine

/-- `MEM_SIZE` = 65536 bytes (R5, R40). -/
def memSize : Nat := 65536

/-- What an unlisted address reads as: 0x00, the reset contents of every byte (R36, R44). -/
def Memory.unlisted : Byte := 0

/-- The byte at an address. -/
def Memory.read : Memory → Nat → Byte
  | [], _ => Memory.unlisted
  | (k, v) :: m, a => if k = a then v else Memory.read m a

/-- Put a listed byte in its place. -/
def Memory.insert : Memory → Nat → Byte → Memory
  | [], a, v => [(a, v)]
  | (k, u) :: m, a, v =>
    if a < k then (a, v) :: (k, u) :: m
    else if a = k then (a, v) :: m
    else (k, u) :: Memory.insert m a v

/-- Write one byte and change no other (R42, R48).
Writing the unlisted value removes the entry, so that equal memories are equal lists. -/
def Memory.write (m : Memory) (a : Nat) (v : Byte) : Memory :=
  if v = Memory.unlisted then m.filter (fun c => c.1 != a) else m.insert a v

/-- The canonical form from address `lo` up: addresses strictly rising and inside the memory, no entry at the unlisted value. -/
def Memory.wfFrom (lo : Nat) : Memory → Bool
  | [] => true
  | (k, v) :: m => decide (lo ≤ k) && decide (k < memSize) && (v != Memory.unlisted) && Memory.wfFrom (k + 1) m

/-- The canonical form of a memory. -/
def Memory.wf (m : Memory) : Bool := m.wfFrom 0

end Sys2Proof.Machine
end

