-- ==== Sys2Proof/Machine/Ops.lean ====
section
/-! DEFINITION. The shared operations over state and memory: the memory primitives (spec/20_memory.md), the engine
primitives (spec/40_engine.md R83 to R85), the end of a run and the one error that ends it (spec/60_exceptions.md R132). -/

namespace Sys2Proof.Machine

/-- What a primitive comes to: a value and the state after it, or OutOfRange raised with the state as every earlier access
left it (spec/00_scope.md R10). -/
inductive Attempt (α : Type) where
  | done (v : α) (s : State)
  | raised (f : Fault) (s : State)
  deriving DecidableEq, Repr

/-- Go on after a primitive; a raise ends the instruction at that point (R10). -/
def Attempt.andThen {α β : Type} (r : Attempt α) (k : α → State → Attempt β) : Attempt β :=
  match r with
  | .done v s => k v s
  | .raised f s => .raised f s

/-- Take `n` from the cycle budget (R88). -/
def State.deduct (s : State) (n : Nat) : State := { s with cyc := s.cfg.narrow (s.cyc - (n : Int)) }

/-- Put a run's budget into CYC (R32, R81). -/
def State.loadBudget (s : State) (budget : Int) : State := { s with cyc := s.cfg.narrow budget }

/-- Move PC on by `n` bytes, modulo 65536 (R24, D8). -/
def State.advancePc (s : State) (n : Nat) : State := { s with pc := s.pc + BitVec.ofNat 16 n }

/-- Replace the memory. -/
def State.setMem (s : State) (m : Memory) : State := { s with mem := m }

/-- The state after `n` instruction bytes have been fetched: PC moved on and the budget reduced by `n` (R83, R84). -/
def State.fetched (s : State) (n : Nat) : State := (s.advancePc n).deduct n

/-- The memory byte a 16-bit address selects. -/
def State.byteAt (s : State) (a : Word) : Byte := s.mem.read a.toNat

/-- `MemRead(a, 1)` (R41). -/
def memRead (a : Nat) (s : State) : Attempt Byte :=
  if a < memSize then .done (s.mem.read a) s else .raised (.outOfRange a) s

/-- `MemWrite(a, 1, v)` (R42). -/
def memWrite (a : Nat) (v : Byte) (s : State) : Attempt Unit :=
  if a < memSize then .done () (s.setMem (s.mem.write a v)) else .raised (.outOfRange a) s

/-- `WriteWord(a, w)` (R43): low byte at `a`, high byte at the exact `a + 1`, then 2 from the budget. -/
def writeWord (a : Nat) (w : Word) (s : State) : Attempt Unit :=
  (memWrite a (lo8 w) s).andThen fun _ s =>
    (memWrite (a + 1) (hi8 w) s).andThen fun _ s => .done () (s.deduct 2)

/-- `Initialise()`: every byte 0x00 (R44). -/
def State.initialise (s : State) : State := s.setMem []

/-- `FetchByte()` (R83). -/
def fetchByte (s : State) : Attempt Byte :=
  (memRead s.pc.toNat s).andThen fun b s => .done b ((s.advancePc 1).deduct 1)

/-- `FetchWord()`: two `FetchByte`s, low byte first (R84). -/
def fetchWord (s : State) : Attempt Word :=
  (fetchByte s).andThen fun lo s => (fetchByte s).andThen fun hi s => .done (joinBytes lo hi) s

/-- `ReadByte(a)` (R85). -/
def readByte (a : Nat) (s : State) : Attempt Byte :=
  (memRead a s).andThen fun v s => .done v (s.deduct 1)

/-- Hand the host a reply (R156). -/
def State.reply (s : State) (r : HostReply) : State := { s with replies := s.replies ++ [r] }

/-- Emit `UnhandledInstruction(op, addr)` on the report output (R133). -/
def State.emit (s : State) (r : Report) : State := { s with reports := s.reports ++ [r] }

/-- End a run: RUN becomes Halted and the host gets the result and CYC (R81, R94). -/
def State.endRun (s : State) (r : RunResult) : State := { s with run := .halted }.reply (.ran r s.cyc)

/-- Take OutOfRange (R132, R136): FAULT records it and the run ends with the error result. No register is saved, no handler
entered and no flag or mode changed; there is no return from it (R137), only reset. -/
def State.takeFault (s : State) (f : Fault) : State := { s with fault := some f }.endRun (.error f)

/-- The step an instruction's last primitive makes of the machine: the state it leaves, or the fault taken (R81). -/
def finish (r : Attempt Unit) : Host.Outcome State Fault Refusal :=
  match r with
  | .done _ s => .next s
  | .raised f s => .next (s.takeFault f)

/-- The spec's label of the fatal error kind (R130, D25: no rule depends on it). -/
def Fault.code : Fault → Nat
  | .outOfRange _ => 1

/-- The spec's label of the report (R130, D25: no rule depends on it). -/
def Report.code (_ : Report) : Nat := 2

end Sys2Proof.Machine
end

