-- ==== Sys2Proof/Machine/Operands.lean ====
section
/-! DEFINITION. The addressing-mode resolver (spec/41_load.md R100) on an operand byte that has been fetched, and the
address of JSR's push. -/

namespace Sys2Proof.Machine

/-- The three modes of the load-accumulator family (R100). -/
inductive AddrMode where
  | immediate | zeroPage | zeroPageX
  deriving DecidableEq, Repr

/-- The effective address of LDA zp: `zext_16(zp)` (R62, R100). -/
def effZeroPage (zp : Byte) : Word := zext16 zp

/-- The effective address of LDA zp,X: `zext_16(zp +₈ X)`, the carry discarded (R62, R100). -/
def effZeroPageX (zp x : Byte) : Word := zext16 (zp + x)

/-- `Resolve(mode)` after its FetchByte, which gave `b` (R100): the operand itself; the byte at the zero-page address; or,
after the index addition's one cycle, the byte at the indexed address (D22). -/
def resolve (mode : AddrMode) (b : Byte) (s : State) : Attempt Byte :=
  match mode with
  | .immediate => .done b s
  | .zeroPage => readByte (effZeroPage b).toNat s
  | .zeroPageX => readByte (effZeroPageX b s.x).toNat (s.deduct 1)

/-- The address JSR pushes at: SP as a full memory address (R25, R120). -/
def pushAddress (s : State) : Nat := s.sp.toNat

/-- JSR's return value, the address of its last byte: PC, one past the fetched operand, less 1 (R120, R121). -/
def returnAddress (s : State) : Word := s.pc - 1

end Sys2Proof.Machine
end

