-- ==== Sys2Proof/Machine/Call.lean ====
section
/-! DEFINITION. The subroutine call (spec/42_jsr.md R120), from where `target <- FetchWord()` has been done. -/

namespace Sys2Proof.Machine

/-- JSR's last three steps: `SP <- SP +₁₆ 2; PC <- target; CYC <- CYC - JSR_EXTRA_CYCLES` (R120). -/
def State.enterCall (s : State) (abs : Word) : State :=
  { s with sp := s.sp + 2, pc := abs }.deduct s.cfg.jsrExtraCycles

/-- JSR abs (R120): push the address of its last byte with WriteWord at SP, then enter the target; the push's second byte
raises OutOfRange(0x10000) when SP = 0xFFFF. -/
def execJsr (abs : Word) (s : State) : Host.Outcome State Fault Refusal :=
  finish ((writeWord (pushAddress s) (returnAddress s) s).andThen fun _ s => .done () (s.enterCall abs))

end Sys2Proof.Machine
end

