-- ==== Sys2Proof/Machine/Flags.lean ====
section
/-! DEFINITION. The flag unit (spec/41_load.md R101, R102): Z and N of a byte just written to A. It has no carry or
overflow path. -/

namespace Sys2Proof.Machine

/-- Z of a result: is it 0x00 (R101)? -/
def zeroOf (r : Byte) : Bool := r == 0

/-- N of a result: its bit 7 (R101). -/
def negativeOf (r : Byte) : Bool := r.getLsbD 7

/-- `SetZN(r)` (R101). -/
def State.setZN (s : State) (r : Byte) : State :=
  { s with flagZ := zeroOf r, flagN := negativeOf r }

end Sys2Proof.Machine
end

