-- ==== Sys2Proof/Machine/Load.lean ====
section
/-! DEFINITION. The load-accumulator family (spec/41_load.md R103 to R106). Each meaning starts where the instruction's
bytes have been fetched: PC stands one past them and the budget is reduced by their number. -/

namespace Sys2Proof.Machine

/-- `A <- v; SetZN(A)`: the last two steps of every load (R103 to R105). -/
def State.loadA (s : State) (v : Byte) : State := { s with a := v }.setZN v

/-- A load of the operand a mode resolves. -/
def execLoad (mode : AddrMode) (b : Byte) (s : State) : Host.Outcome State Fault Refusal :=
  finish ((resolve mode b s).andThen fun v s => .done () (s.loadA v))

/-- LDA #imm (R103). -/
def execLdaImm (imm : Byte) (s : State) : Host.Outcome State Fault Refusal := execLoad .immediate imm s

/-- LDA zp (R104). -/
def execLdaZp (zp : Byte) (s : State) : Host.Outcome State Fault Refusal := execLoad .zeroPage zp s

/-- LDA zp,X (R105). -/
def execLdaZpX (zp : Byte) (s : State) : Host.Outcome State Fault Refusal := execLoad .zeroPageX zp s

end Sys2Proof.Machine
end

