-- ==== Sys2Proof/Machine/Unhandled.lean ====
section
/-! DEFINITION. The unhandled opcode (spec/40_engine.md R87, spec/60_exceptions.md R133), from where its one byte has been
fetched. -/

namespace Sys2Proof.Machine

/-- UNHANDLED(op, opaddr): report the opcode and the address it was fetched from, PC less 1; nothing else changes (R87). -/
def execUnhandled (op : Byte) (s : State) : Host.Outcome State Fault Refusal :=
  .next (s.emit { op := op, addr := s.pc - 1 })

end Sys2Proof.Machine
end

