-- ==== Sys2Proof/Syntax.lean ====
section
/-! DEFINITION. The instructions: one constructor per row of spec/opcode_table.json. -/

namespace Sys2Proof

/-- The four handled instructions of spec/30_encoding.md R63 and the decoder's default case of R64. -/
inductive Instr where
  /-- JSR abs (R120); `abs` is the assembled 16-bit target. -/
  | jsr (abs : Word)
  /-- LDA zp (R104); `zp` is the zero-page address byte. -/
  | ldaZp (zp : Byte)
  /-- LDA #imm (R103). -/
  | ldaImm (imm : Byte)
  /-- LDA zp,X (R105); `zp` is the zero-page base byte. -/
  | ldaZpX (zp : Byte)
  /-- An unhandled opcode byte (R64, R87). -/
  | unhandled (op : Byte)
  deriving DecidableEq, Repr

/-- The four formats of R61. -/
inductive Format where
  | op | imm8 | zp8 | abs16
  deriving DecidableEq, Repr

/-- A format's length in bytes (R61). -/
def Format.length : Format → Nat
  | .op => 1
  | .imm8 => 2
  | .zp8 => 2
  | .abs16 => 3

/-- An instruction's format (R61, column "used by"). -/
def Instr.format : Instr → Format
  | .jsr _ => .abs16
  | .ldaZp _ => .zp8
  | .ldaImm _ => .imm8
  | .ldaZpX _ => .zp8
  | .unhandled _ => .op

/-- An instruction's length in bytes (R61, R65). -/
def Instr.length (i : Instr) : Nat := i.format.length

end Sys2Proof
end

