-- ==== Sys2Proof/Machine/Dispatch.lean ====
section
/-! DEFINITION. One arm per constructor of Instr, each a direct call of its meaning. -/

namespace Sys2Proof.Machine

def exec (i : Instr) (s : State) : Host.Outcome State Fault Refusal :=
  match i with
  | .jsr abs => Sys2Proof.Machine.execJsr abs s
  | .ldaZp zp => Sys2Proof.Machine.execLdaZp zp s
  | .ldaImm imm => Sys2Proof.Machine.execLdaImm imm s
  | .ldaZpX zp => Sys2Proof.Machine.execLdaZpX zp s
  | .unhandled op => Sys2Proof.Machine.execUnhandled op s

end Sys2Proof.Machine
end

