-- ==== Sys2Proof/WellFormed.lean ====
section
/-! DEFINITION. Which parameters and which instructions make sense (spec/00_scope.md R6, spec/30_encoding.md R63, R64). -/

namespace Sys2Proof

/-- The parameters' one constraint (R6): the four handled opcodes are distinct. That 0xA9 and 0x20 differ needs no check. -/
def Config.wf (cfg : Config) : Bool :=
  cfg.opcLdaZp != opcLdaImm && cfg.opcLdaZpX != opcLdaImm &&
  cfg.opcLdaZp != cfg.opcLdaZpX && cfg.opcLdaZp != opcJsr && cfg.opcLdaZpX != opcJsr

/-- Is a byte one of the four values bound to a handler (R63)? -/
def Config.bound (cfg : Config) (op : Byte) : Bool :=
  op == opcLdaImm || op == cfg.opcLdaZp || op == cfg.opcLdaZpX || op == opcJsr

/-- An instruction is well-formed when its bytes mean it: every operand value of the four handled instructions is admitted
(R62), and an unhandled opcode is a byte bound to no handler (R64). -/
def Instr.wf (cfg : Config) : Instr → Bool
  | .jsr _ => true
  | .ldaZp _ => true
  | .ldaImm _ => true
  | .ldaZpX _ => true
  | .unhandled op => !cfg.bound op

end Sys2Proof
end

