-- ==== Sys2Proof/Decode.lean ====
section
/-! DEFINITION. The decoder and the encoder (spec/30_encoding.md, spec/40_engine.md R86). -/

namespace Sys2Proof

/-- The closed tagged set an opcode byte is mapped to (R86). -/
inductive Handler where
  | ldaImm | ldaZp | ldaZpX | jsr | unhandled
  deriving DecidableEq, Repr

/-- Why a list of bytes is no instruction. No byte VALUE is refused (R64): bytes can only be missing. -/
inductive DecodeReject where
  /-- There is no opcode byte. -/
  | noOpcode
  /-- The opcode's format has operand bytes (R61) and the list ends before them. -/
  | missingOperand
  deriving DecidableEq, Repr

/-- The mapping from opcode byte to handler (R63, R64, R86), in the order of R81's case. -/
def decodeOpcode (cfg : Config) (op : Byte) : Handler :=
  if op = opcLdaImm then .ldaImm
  else if op = cfg.opcLdaZp then .ldaZp
  else if op = cfg.opcLdaZpX then .ldaZpX
  else if op = opcJsr then .jsr
  else .unhandled

/-- The format the opcode byte alone decides (R60, R61). -/
def Handler.format : Handler → Format
  | .ldaImm => .imm8
  | .ldaZp => .zp8
  | .ldaZpX => .zp8
  | .jsr => .abs16
  | .unhandled => .op

/-- `len(op)`: the length of the instruction an opcode byte starts (R65). -/
def opcodeLength (cfg : Config) (op : Byte) : Nat := (decodeOpcode cfg op).format.length

/-- The decoder: the instruction at the head of a byte stream and the bytes after it (R60 to R65). -/
def decode (cfg : Config) : List Byte → Except DecodeReject (Instr × List Byte)
  | [] => .error .noOpcode
  | op :: rest =>
    match decodeOpcode cfg op, rest with
    | .ldaImm, imm :: rest => .ok (.ldaImm imm, rest)
    | .ldaZp, zp :: rest => .ok (.ldaZp zp, rest)
    | .ldaZpX, zp :: rest => .ok (.ldaZpX zp, rest)
    | .jsr, lo :: hi :: rest => .ok (.jsr (joinBytes lo hi), rest)
    | .unhandled, rest => .ok (.unhandled op, rest)
    | _, _ => .error .missingOperand

/-- The encoder: an instruction's bytes in increasing address order (R61, R63). -/
def encode (cfg : Config) : Instr → List Byte
  | .jsr abs => [opcJsr, lo8 abs, hi8 abs]
  | .ldaZp zp => [cfg.opcLdaZp, zp]
  | .ldaImm imm => [opcLdaImm, imm]
  | .ldaZpX zp => [cfg.opcLdaZpX, zp]
  | .unhandled op => [op]

/-- What the decoder, with the default parameters, reads from an instruction given by its bits numbered as
spec/opcode_table.json numbers them. -/
def decodeTableWord (nbits w : Nat) : Option Instr :=
  match decode defaultConfig (tableBytes nbits w) with
  | .ok (i, _) => some i
  | .error _ => none

end Sys2Proof
end

