-- ==== Sys2Proof/Machine/Fetch.lean ====
section
/-! DEFINITION. Fetching an instruction by the engine primitives (spec/40_engine.md R81 steps 1 and 2 with the operand
fetches of R100 and R120), and placing one where the next fetch reads. -/

namespace Sys2Proof.Machine

/-- Fetch the opcode, map it to its handler, and fetch the operand bytes that handler's format gives it (R81, R86, R61).
The operand fetches are the first step of every handler (R100, R120), so nothing comes between them and the opcode's. -/
def fetchInstr (s : State) : Attempt Instr :=
  (fetchByte s).andThen fun op s =>
    match decodeOpcode s.cfg op with
    | .ldaImm => (fetchByte s).andThen fun imm s => .done (.ldaImm imm) s
    | .ldaZp => (fetchByte s).andThen fun zp s => .done (.ldaZp zp) s
    | .ldaZpX => (fetchByte s).andThen fun zp s => .done (.ldaZpX zp) s
    | .jsr => (fetchWord s).andThen fun abs s => .done (.jsr abs) s
    | .unhandled => .done (.unhandled op) s

/-- The bytes of the longest instruction at PC, addresses modulo 65536 (R60, R84). -/
def State.window (s : State) : List Byte := [s.byteAt s.pc, s.byteAt (s.pc + 1), s.byteAt (s.pc + 2)]

/-- Store bytes at consecutive addresses, modulo 65536. -/
def Memory.place : Memory → Word → List Byte → Memory
  | m, _, [] => m
  | m, a, b :: bs => Memory.place (m.write a.toNat b) (a + 1) bs

/-- A state in which a run is executing at the budget test with budget left: INIT true, FAULT none, RUN Running, and a
budget of 1 where none is left (R80, R81, R143). -/
def State.inRun (s : State) : State :=
  { s with init := true, fault := none, run := .running, cyc := if 0 < s.cyc then s.cyc else 1 }

end Sys2Proof.Machine
end

