-- ==== Sys2Proof/Machine/HostInterface.lean ====
section
/-! DEFINITION. The transaction-level host interface (spec/70_reset_and_hazards.md R150 to R156, spec/40_engine.md R80). -/

namespace Sys2Proof.Machine

/-- `Reset()` (R150): every item at its reset value; CYC is not set and no event already emitted is retracted. -/
def State.performReset (s : State) : State :=
  { s.initialise with
    pc := s.cfg.resetPc, sp := s.cfg.resetSp, a := 0, x := 0, y := 0,
    flagC := false, flagZ := false, flagI := false, flagD := false, flagB := false, flagV := false, flagN := false,
    fault := none, run := .halted, init := true }

/-- A register read by the host (R156). -/
def State.getByteReg (s : State) : ByteReg → Byte
  | .a => s.a
  | .x => s.x
  | .y => s.y

/-- A register written by the host (R156). -/
def State.setByteReg (s : State) (r : ByteReg) (v : Byte) : State :=
  match r with
  | .a => { s with a := v }
  | .x => { s with x := v }
  | .y => { s with y := v }

/-- PC or SP read by the host (R156). -/
def State.getWordReg (s : State) : WordReg → Word
  | .pc => s.pc
  | .sp => s.sp

/-- PC or SP written by the host (R156). -/
def State.setWordReg (s : State) (r : WordReg) (v : Word) : State :=
  match r with
  | .pc => { s with pc := v }
  | .sp => { s with sp := v }

/-- A flag read by the host (R156). -/
def State.getFlag (s : State) : FlagName → Bool
  | .c => s.flagC
  | .z => s.flagZ
  | .i => s.flagI
  | .d => s.flagD
  | .b => s.flagB
  | .v => s.flagV
  | .n => s.flagN

/-- A flag written by the host (R156). -/
def State.setFlag (s : State) (f : FlagName) (v : Bool) : State :=
  match f with
  | .c => { s with flagC := v }
  | .z => { s with flagZ := v }
  | .i => { s with flagI := v }
  | .d => { s with flagD := v }
  | .b => { s with flagB := v }
  | .v => { s with flagV := v }
  | .n => { s with flagN := v }

/-- The host's memory load: MemWrite, whose OutOfRange goes to the host and not to FAULT (R156). -/
def State.hostLoad (s : State) (a : Nat) (v : Byte) : State :=
  match memWrite a v s with
  | .done _ t => t.reply .loaded
  | .raised (.outOfRange a) t => t.reply (.outOfRange a)

/-- The host's memory read: MemRead, whose OutOfRange goes to the host and not to FAULT (R156). -/
def State.hostRead (s : State) (a : Nat) : State :=
  match memRead a s with
  | .done v t => t.reply (.byte v)
  | .raised (.outOfRange a) t => t.reply (.outOfRange a)

/-- `run(budget)`: load CYC; with FAULT set return the error at once (R80); else make the loop's first test (R81, R82). -/
def State.startRun (s : State) (budget : Int) : State :=
  match s.fault with
  | some f => (s.loadBudget budget).reply (.ran (.error f) (s.loadBudget budget).cyc)
  | none =>
    if (s.loadBudget budget).cyc ≤ 0 then (s.loadBudget budget).endRun .halted
    else { s.loadBudget budget with run := .running }

/-- What CORE does for a request that needs INIT (R156); reset needs none and is served apart. -/
def State.serveInit (s : State) : HostRequest → State
  | .reset => s.performReset
  | .loadByte a v => s.hostLoad a v
  | .readByte a => s.hostRead a
  | .writeByteReg r v => s.setByteReg r v
  | .writeWordReg r v => s.setWordReg r v
  | .writeFlag f v => s.setFlag f v
  | .readByteReg r => s.reply (.byteReg r (s.getByteReg r))
  | .readWordReg r => s.reply (.wordReg r (s.getWordReg r))
  | .readFlag f => s.reply (.flag f (s.getFlag f))
  | .run budget => s.startRun budget

/-- Serve one request: reset always; any other only after the first reset, before which it is refused (R152). -/
def serve (r : HostRequest) (s : State) : Host.Outcome State Fault Refusal :=
  if r = .reset ∨ s.init = true then .next (s.serveInit r) else .refused .beforeFirstReset

/-- CORE between runs: serve the host's next request, or stay idle when there is none (R144). -/
def hostTurn (s : State) : Host.Outcome State Fault Refusal :=
  match s.requests with
  | [] => .next s
  | r :: rest => serve r { s with requests := rest }

end Sys2Proof.Machine
end

