-- ==== Sys2Proof/Machine/Loop.lean ====
section
/-! DEFINITION. The run loop (spec/40_engine.md R81, R82) and what one step of the machine is. -/

namespace Sys2Proof.Machine

/-- One pass of the loop of R81: with the budget used up the run ends; else one whole instruction is fetched and executed,
and an OutOfRange anywhere in it is taken. -/
def iteration (s : State) : Host.Outcome State Fault Refusal :=
  if s.cyc ≤ 0 then .next (s.endRun .halted)
  else
    match fetchInstr s with
    | .done i t => exec i t
    | .raised f t => .next (t.takeFault f)

/-- One step: a pass of the loop while a run is executing, else the host's turn. While CORE is Running the host has no move
(R156); before the first reset there is no run (R34). -/
def turn (s : State) : Host.Outcome State Fault Refusal :=
  if s.init = true ∧ s.run = .running then iteration s else hostTurn s

end Sys2Proof.Machine
end

