-- ==== Sys2Proof/Machine/Step.lean ====
section
/-! DEFINITION. The machine's step, and a state whose next step runs a given instruction. -/

namespace Sys2Proof.Machine

/-- One step of the machine (Machine/Loop.lean). -/
def step (s : State) : Host.Outcome State Fault Refusal := turn s

/-- `s` with an instruction stored at PC and a run in progress, so that the next step fetches and runs it: it stands for the
host's memory loads and its `run` request (R155; log entry 5). -/
def State.withFetchWord (s : State) (nbits w : Nat) : State :=
  (s.setMem (s.mem.place s.pc (tableBytes nbits w))).inRun

end Sys2Proof.Machine
end

