-- ==== Sys2Proof/Machine/Asm.lean ====
section
/-! DEFINITION. The assembly text of an instruction (spec/30_encoding.md R67). -/

namespace Sys2Proof

/-- One hexadecimal digit. -/
def hexDigit (n : Nat) : Char := if n < 10 then Char.ofNat (48 + n) else Char.ofNat (55 + n)

/-- The last `k` hexadecimal digits of a number, the most significant first. -/
def hexDigits : Nat → Nat → List Char
  | 0, _ => []
  | k + 1, n => hexDigits k (n / 16) ++ [hexDigit (n % 16)]

/-- The text of an instruction as a list of characters: mnemonic, space, operand; an unhandled byte is `.byte $hh` (R67). -/
def Instr.asm : Instr → List Char
  | .jsr abs => "JSR $".toList ++ hexDigits 4 abs.toNat
  | .ldaZp zp => "LDA $".toList ++ hexDigits 2 zp.toNat
  | .ldaImm imm => "LDA #$".toList ++ hexDigits 2 imm.toNat
  | .ldaZpX zp => "LDA $".toList ++ hexDigits 2 zp.toNat ++ ",X".toList
  | .unhandled op => ".byte $".toList ++ hexDigits 2 op.toNat

end Sys2Proof
end

