-- ==== Sys2Proof/Safety.lean ====
section
/-! DEFINITION. The terms claims are stated in: when a run is executing, what an instruction costs, and the invariant of the
machine. -/

namespace Sys2Proof

/-- The total budget cost of an instruction that completes (spec/40_engine.md R88, the table's last column). -/
def Instr.cost (cfg : Config) : Instr → Nat
  | .unhandled _ => 1
  | .ldaImm _ => 2
  | .ldaZp _ => 3
  | .ldaZpX _ => 4
  | .jsr _ => 5 + cfg.jsrExtraCycles

/-- `MAXCOST = 5 + JSR_EXTRA_CYCLES` (R89). -/
def Config.maxCost (cfg : Config) : Nat := 5 + cfg.jsrExtraCycles

/-- Does the budget's counter hold every value a run can leave (R89)? A run starts an instruction with CYC ≥ 1 and the
instruction costs at most MAXCOST, so `1 − MAXCOST` must not wrap; no value does with the default type (log entry 17). -/
def Config.budgetWide (cfg : Config) : Bool :=
  match cfg.budget with
  | .integer => true
  | .signed width => decide (cfg.maxCost ≤ 2 ^ (width - 1))

namespace Machine

/-- A run is in progress and the loop's test finds budget left: the next step executes an instruction (R81, R82). -/
abbrev State.executing (s : State) : Prop := s.init = true ∧ s.run = .running ∧ 0 < s.cyc

/-- The invariant every step keeps: the parameters meet R6's constraint and the budget's counter is wide enough, memory is in
its canonical form, CYC is a value the counter holds, and after the first reset a run in progress has no fault (R80) and has
overshot its budget by less than one instruction's cost (R89). -/
abbrev State.Inv (s : State) : Prop :=
  s.cfg.wf = true ∧ s.cfg.budgetWide = true ∧ s.mem.wf = true ∧ s.cfg.narrow s.cyc = s.cyc ∧
  (s.init = true → s.run = .running → s.fault = none ∧ 1 - (s.cfg.maxCost : Int) ≤ s.cyc)

/-- Execute instructions one after another, stopping at the first fault or refusal. -/
def execAll : List Instr → State → Host.Outcome State Fault Refusal
  | [], s => .next s
  | i :: is, s =>
    match exec i s with
    | .next t => execAll is t
    | .fault f => .fault f
    | .refused r => .refused r

end Machine

end Sys2Proof
end

