-- ==== Sys2Proof/Certificates/Slice0/Obligations.lean ====
section
/-! DEFINITION. The statements for the provers. Where a rule carries the mark of a decision or a derivation of the spec's
own, its statement's docstring says so. Where a statement gives CYC through `Config.narrow`, it holds for every type of the
budget that R6 leaves open, in the model's form of it (log entry 17); with the default type `narrow` is the identity. -/

open Sys2Proof Sys2Proof.Machine

/-! ## Encoding -/

/-- R68: the source's three encoding examples, decoded, encoded and as assembly text. -/
def Obligations.SourceExamplesEncode : Prop :=
  decode defaultConfig [0x20, 0x42, 0x42] = .ok (.jsr 0x4242, []) ∧
  decode defaultConfig [0xA9, 0x84] = .ok (.ldaImm 0x84, []) ∧
  decode defaultConfig [0xA9, 0x00] = .ok (.ldaImm 0x00, []) ∧
  encode defaultConfig (.jsr 0x4242) = [0x20, 0x42, 0x42] ∧
  encode defaultConfig (.ldaImm 0x84) = [0xA9, 0x84] ∧
  encode defaultConfig (.ldaImm 0x00) = [0xA9, 0x00] ∧
  (Instr.jsr 0x4242).asm = "JSR $4242".toList ∧
  (Instr.ldaImm 0x84).asm = "LDA #$84".toList ∧
  (Instr.ldaImm 0x00).asm = "LDA #$00".toList

/-- One word of each other row of the opcode table, with the default opcode bytes 0xA5 and 0xB5 (the spec's decisions D3 and
D4, log entry 1). -/
def Obligations.DefaultWordsDecode : Prop :=
  decode defaultConfig [0xA5, 0x42] = .ok (.ldaZp 0x42, []) ∧
  decode defaultConfig [0xB5, 0x80] = .ok (.ldaZpX 0x80, []) ∧
  decode defaultConfig [0x00] = .ok (.unhandled 0x00, []) ∧
  decode defaultConfig [0x20, 0x34, 0x12] = .ok (.jsr 0x1234, [])

/-- R86: the opcode byte alone picks exactly one handler, and every byte but the four bound ones is unhandled; holds for every
choice of the open opcode bytes that R6 allows. -/
def Obligations.OpcodeMapsToOneHandler : Prop :=
  ∀ cfg : Config, cfg.wf = true → ∀ op : Byte,
    (decodeOpcode cfg op = .ldaImm ↔ op = 0xA9) ∧
    (decodeOpcode cfg op = .ldaZp ↔ op = cfg.opcLdaZp) ∧
    (decodeOpcode cfg op = .ldaZpX ↔ op = cfg.opcLdaZpX) ∧
    (decodeOpcode cfg op = .jsr ↔ op = 0x20) ∧
    (decodeOpcode cfg op = .unhandled ↔
      op ≠ 0xA9 ∧ op ≠ cfg.opcLdaZp ∧ op ≠ cfg.opcLdaZpX ∧ op ≠ 0x20)

/-- Decoding an encoded well-formed instruction gives it back, every operand at every value, and leaves the bytes after it. -/
def Obligations.DecodeOfEncode : Prop :=
  ∀ (cfg : Config) (i : Instr) (rest : List Byte), cfg.wf = true → i.wf cfg = true →
    decode cfg (encode cfg i ++ rest) = .ok (i, rest)

/-- What decodes is well-formed and encodes to the very bytes it was read from: each byte sequence has one meaning. -/
def Obligations.EncodeOfDecode : Prop :=
  ∀ (cfg : Config) (bs rest : List Byte) (i : Instr), decode cfg bs = .ok (i, rest) →
    i.wf cfg = true ∧ encode cfg i ++ rest = bs

/-- The decoder rejects bytes only when some are missing: no byte value is rejected (the consequence of R60, R61 and R64). -/
def Obligations.DecodeRejectsOnlyMissingBytes : Prop :=
  ∀ (cfg : Config) (bs : List Byte),
    (∃ e, decode cfg bs = .error e) ↔
      bs = [] ∨ ∃ op r, bs = op :: r ∧ bs.length < opcodeLength cfg op

/-- R65 (the spec's own derivation): the opcode byte alone gives the length, and every instruction but JSR leaves PC at its
opcode address plus its length. -/
def Obligations.LengthFromOpcodeAlone : Prop :=
  (∀ cfg : Config, cfg.wf = true →
    opcodeLength cfg 0x20 = 3 ∧ opcodeLength cfg 0xA9 = 2 ∧
    opcodeLength cfg cfg.opcLdaZp = 2 ∧ opcodeLength cfg cfg.opcLdaZpX = 2 ∧
    ∀ op, op ≠ 0x20 → op ≠ 0xA9 → op ≠ cfg.opcLdaZp → op ≠ cfg.opcLdaZpX → opcodeLength cfg op = 1) ∧
  (∀ s : State, s.executing → s.cfg.wf = true → s.byteAt s.pc ≠ 0x20 →
    ∃ t, step s = .next t ∧ t.pc = s.pc + BitVec.ofNat 16 (opcodeLength s.cfg (s.byteAt s.pc)))

/-! ## Memory and the engine's primitives -/

/-- R41 and R42: inside the 65536 bytes a read gives the byte and changes nothing, and a write changes that byte alone; at
any address beyond, both raise OutOfRange with that address and change nothing. -/
def Obligations.MemoryAccessIsBoundsChecked : Prop :=
  (∀ (a : Nat) (s : State), a < 65536 → memRead a s = .done (s.mem.read a) s) ∧
  (∀ (a : Nat) (v : Byte) (s : State), a < 65536 →
    ∃ m, memWrite a v s = .done () { s with mem := m } ∧ m.read a = v ∧ ∀ b, b ≠ a → m.read b = s.mem.read b) ∧
  (∀ (a : Nat) (v : Byte) (s : State), 65536 ≤ a →
    memRead a s = .raised (.outOfRange a) s ∧ memWrite a v s = .raised (.outOfRange a) s)

/-- WriteWord (R43 with the spec's decisions D9 and D22): the word goes low byte first to `a` and `a + 1` and costs 2; at 0xFFFF
the low byte is written, the high byte's address does not wrap, and nothing is deducted. -/
def Obligations.WriteWordIsTwoByteWrites : Prop :=
  ∀ (a : Nat) (w : Word) (s : State),
    (a + 1 < 65536 → ∃ m, writeWord a w s = .done () { s with mem := m, cyc := s.cfg.narrow (s.cyc - 2) } ∧
      m.read a = BitVec.ofNat 8 (w.toNat % 256) ∧ m.read (a + 1) = BitVec.ofNat 8 (w.toNat / 256) ∧
      ∀ b, b ≠ a → b ≠ a + 1 → m.read b = s.mem.read b) ∧
    (a = 65535 → ∃ m, writeWord a w s = .raised (.outOfRange 65536) { s with mem := m } ∧
      m.read a = BitVec.ofNat 8 (w.toNat % 256) ∧ ∀ b, b ≠ a → m.read b = s.mem.read b) ∧
    (65536 ≤ a → writeWord a w s = .raised (.outOfRange a) s)

/-- FetchByte (R83, with the wrap at 0xFFFF of the spec's decision D8): it never raises, reads the byte at PC, moves PC by one
and costs one. -/
def Obligations.FetchByteAdvancesOne : Prop :=
  ∀ s : State, fetchByte s = .done (s.mem.read s.pc.toNat) { s with pc := s.pc + 1, cyc := s.cfg.narrow (s.cyc - 1) }

/-- FetchWord (R84, with the wrap at 0xFFFF of the spec's decision D8): two bytes, the low one first. -/
def Obligations.FetchWordAdvancesTwo : Prop :=
  ∀ s : State, ∃ w : Word, fetchWord s = .done w { s with pc := s.pc + 2, cyc := s.cfg.narrow (s.cyc - 2) } ∧
    w.toNat = (s.mem.read s.pc.toNat).toNat + 256 * (s.mem.read ((s.pc.toNat + 1) % 65536)).toNat

/-- R85: ReadByte at a valid address gives that byte, costs one and leaves everything else, PC among it; the addresses the loads
call it with are zero-page addresses, so there it never raises. CYC is R32's integer; for the other types of budget StepCostTable
says it. -/
def Obligations.ReadByteCostsOne : Prop :=
  (∀ (a : Nat) (s : State), a < 65536 →
    ∃ c, readByte a s = .done (s.mem.read a) { s with cyc := c } ∧ (s.cfg.budget = .integer → c = s.cyc - 1)) ∧
  (∀ (zp x : Byte), (effZeroPage zp).toNat < 256 ∧ (effZeroPageX zp x).toNat < 256)

/-- Little-endian for data and for the instruction stream, in every state (R45, with the wrap of a fetch at 0xFFFF of the spec's
decision D8): a fetched word has its low byte first, a written word puts its low byte at the lower address, and the bytes of a
word just written fetch back as that word. -/
def Obligations.LittleEndianForDataAndCode : Prop :=
  (∀ s : State, ∃ t, fetchWord s = .done
    (BitVec.ofNat 16 ((s.byteAt s.pc).toNat + 256 * (s.byteAt (s.pc + 1)).toNat)) t) ∧
  (∀ (p w : Word) (s t : State), writeWord p.toNat w s = .done () t →
    t.byteAt p = BitVec.ofNat 8 (w.toNat % 256) ∧ t.byteAt (p + 1) = BitVec.ofNat 8 (w.toNat / 256) ∧
    ∃ u, fetchWord { t with pc := p } = .done w u)

/-- Two memories in canonical form that read alike everywhere are the same data. -/
def Obligations.CanonicalMemoriesAreEqual : Prop :=
  ∀ m n : Memory, m.wf = true → n.wf = true → (∀ a, m.read a = n.read a) → m = n

/-! ## What each instruction does, from where its bytes are fetched -/

/-- LDA immediate completes in every state: A gets the operand, Z and N are those of it (R101), and nothing else changes once its bytes
are fetched. -/
def Obligations.LdaImmediateLoadsOperand : Prop :=
  ∀ (imm : Byte) (s : State),
    exec (.ldaImm imm) s =
      .next { s with a := imm, flagZ := decide (imm = 0x00), flagN := decide (0x80 ≤ imm.toNat) }

/-- LDA zero page completes in every state: A gets the byte at the zero-page address, Z and N are those of that byte (R101), and the
read costs one. -/
def Obligations.LdaZeroPageLoadsByte : Prop :=
  ∀ (zp : Byte) (s : State),
    exec (.ldaZp zp) s =
      .next { s with
        a := s.mem.read zp.toNat
        flagZ := decide (s.mem.read zp.toNat = 0x00)
        flagN := decide (0x80 ≤ (s.mem.read zp.toNat).toNat)
        cyc := s.cfg.narrow (s.cyc - 1) }

/-- LDA zero page,X completes in every state: the address is the operand plus X modulo 256, and the index addition and the read
cost one each. -/
def Obligations.LdaZeroPageXLoadsByte : Prop :=
  ∀ (zp : Byte) (s : State) (ea : Nat), ea = (zp.toNat + s.x.toNat) % 256 →
    exec (.ldaZpX zp) s =
      .next { s with
        a := s.mem.read ea
        flagZ := decide (s.mem.read ea = 0x00)
        flagN := decide (0x80 ≤ (s.mem.read ea).toNat)
        cyc := s.cfg.narrow (s.cyc - 2) }

/-- JSR completes at every SP but 0xFFFF: the address of its last byte is pushed low byte first at SP and SP + 1, SP moves up by
2 and PC is the target. The push's width, order and step are the spec's decision D5, its extra cost the parameter of D6. -/
def Obligations.JsrPushesAndJumps : Prop :=
  ∀ (abs : Word) (s : State), s.sp ≠ 0xFFFF →
    ∃ m, exec (.jsr abs) s =
        .next { s with
          pc := abs
          sp := s.sp + 2
          mem := m
          cyc := s.cfg.narrow (s.cyc - 2 - (s.cfg.jsrExtraCycles : Int)) } ∧
      m.read s.sp.toNat = BitVec.ofNat 8 ((s.pc - 1).toNat % 256) ∧
      m.read (s.sp.toNat + 1) = BitVec.ofNat 8 ((s.pc - 1).toNat / 256) ∧
      ∀ b, b ≠ s.sp.toNat → b ≠ s.sp.toNat + 1 → m.read b = s.mem.read b

/-- JSR at SP = 0xFFFF takes OutOfRange(0x10000): the low byte stands, SP, PC and CYC stay, FAULT records the address and the run
ends with the error (the spec's decisions D7 and D9). -/
def Obligations.JsrFaultsAtTopOfMemory : Prop :=
  ∀ (abs : Word) (s : State), s.sp = 0xFFFF →
    ∃ m, exec (.jsr abs) s =
        .next { s with
          mem := m
          fault := some (.outOfRange 0x10000)
          run := .halted
          replies := s.replies ++ [.ran (.error (.outOfRange 0x10000)) s.cyc] } ∧
      m.read 0xFFFF = BitVec.ofNat 8 ((s.pc - 1).toNat % 256) ∧
      ∀ b, b ≠ 0xFFFF → m.read b = s.mem.read b

/-- An unhandled opcode completes in every state: one report with the opcode and the address it was fetched from, and nothing else
(R87 with the report of the spec's decision D11). -/
def Obligations.UnhandledOnlyReports : Prop :=
  ∀ (op : Byte) (s : State),
    exec (.unhandled op) s = .next { s with reports := s.reports ++ [{ op := op, addr := s.pc - 1 }] }

/-! ## What one step of a run does -/

/-- A step runs the decoded instruction: while a run is executing, the bytes at PC decode, and the step is `exec` of what they
decode to once they have been fetched (PC past them, the budget less their number), as log entry 6 makes it one step. -/
def Obligations.StepRunsDecodedInstruction : Prop :=
  (∀ s : State, ∃ i rest, decode s.cfg s.window = .ok (i, rest)) ∧
  (∀ (s : State) (i : Instr) (rest : List Byte), s.executing → decode s.cfg s.window = .ok (i, rest) →
    step s = exec i { s with pc := s.pc + BitVec.ofNat 16 i.length, cyc := s.cfg.narrow (s.cyc - (i.length : Int)) })

/-- A table word placed by `withFetchWord` is the instruction the next step runs, in any state with the default parameters. -/
def Obligations.PlacedWordIsRun : Prop :=
  ∀ (s : State) (nbits w : Nat) (i : Instr), s.cfg = defaultConfig → decodeTableWord nbits w = some i →
    step (s.withFetchWord nbits w) = exec i ((s.withFetchWord nbits w).fetched i.length)

/-- R103: LDA immediate, opcode and operand in memory at PC. CYC is R32's integer; for the other types of budget StepCostTable
says it. -/
def Obligations.StepLdaImmediate : Prop :=
  ∀ (s : State) (imm : Byte), s.executing → s.byteAt s.pc = 0xA9 → s.byteAt (s.pc + 1) = imm →
    ∃ c,
      step s =
        .next { s with
          a := imm
          flagZ := decide (imm = 0x00)
          flagN := decide (0x80 ≤ imm.toNat)
          pc := s.pc + 2
          cyc := c } ∧
      (s.cfg.budget = .integer → c = s.cyc - 2)

/-- R104: LDA zero page, for every opcode byte `OPC_LDA_ZP` that R6 allows (its default is the spec's decision D3). CYC is R32's
integer; for the other types of budget StepCostTable says it. -/
def Obligations.StepLdaZeroPage : Prop :=
  ∀ (s : State) (zp v : Byte), s.executing → s.cfg.wf = true →
    s.byteAt s.pc = s.cfg.opcLdaZp → s.byteAt (s.pc + 1) = zp → s.mem.read zp.toNat = v →
    ∃ c,
      step s =
        .next { s with
          a := v
          flagZ := decide (v = 0x00)
          flagN := decide (0x80 ≤ v.toNat)
          pc := s.pc + 2
          cyc := c } ∧
      (s.cfg.budget = .integer → c = s.cyc - 3)

/-- R105: LDA zero page,X, for every opcode byte `OPC_LDA_ZPX` that R6 allows (its default is the spec's decision D4). CYC is R32's
integer; for the other types of budget StepCostTable says it. -/
def Obligations.StepLdaZeroPageX : Prop :=
  ∀ (s : State) (zp v : Byte), s.executing → s.cfg.wf = true →
    s.byteAt s.pc = s.cfg.opcLdaZpX → s.byteAt (s.pc + 1) = zp →
    s.mem.read ((zp.toNat + s.x.toNat) % 256) = v →
    ∃ c,
      step s =
        .next { s with
          a := v
          flagZ := decide (v = 0x00)
          flagN := decide (0x80 ≤ v.toNat)
          pc := s.pc + 2
          cyc := c } ∧
      (s.cfg.budget = .integer → c = s.cyc - 4)

/-- R120 (with the spec's decisions D5, D6, D9 and D22): JSR as one step, at every SP: the push, the jump and the cost, or the
fault at 0xFFFF with the three fetches standing. -/
def Obligations.StepJsr : Prop :=
  ∀ (s : State) (lo hi : Byte), s.executing → s.cfg.wf = true →
    s.byteAt s.pc = 0x20 → s.byteAt (s.pc + 1) = lo → s.byteAt (s.pc + 2) = hi →
    ∃ m : Memory,
      m.read s.sp.toNat = BitVec.ofNat 8 ((s.pc + 2).toNat % 256) ∧
      (s.sp ≠ 0xFFFF →
        step s =
          .next { s with
            pc := BitVec.ofNat 16 (lo.toNat + 256 * hi.toNat)
            sp := s.sp + 2
            mem := m
            cyc := s.cfg.narrow (s.cyc - 5 - (s.cfg.jsrExtraCycles : Int)) } ∧
        m.read (s.sp.toNat + 1) = BitVec.ofNat 8 ((s.pc + 2).toNat / 256) ∧
        ∀ b, b ≠ s.sp.toNat → b ≠ s.sp.toNat + 1 → m.read b = s.mem.read b) ∧
      (s.sp = 0xFFFF →
        step s =
          .next { s with
            pc := s.pc + 3
            mem := m
            cyc := s.cfg.narrow (s.cyc - 3)
            fault := some (.outOfRange 0x10000)
            run := .halted
            replies := s.replies ++ [.ran (.error (.outOfRange 0x10000)) (s.cfg.narrow (s.cyc - 3))] } ∧
        ∀ b, b ≠ 0xFFFF → m.read b = s.mem.read b)

/-- R87 (with the report of the spec's decision D11): any byte bound to no handler is skipped at the cost of one, with one report. -/
def Obligations.StepUnhandled : Prop :=
  ∀ (s : State) (op : Byte), s.executing → s.byteAt s.pc = op → s.cfg.bound op = false →
    step s =
      .next { s with
        pc := s.pc + 1
        cyc := s.cfg.narrow (s.cyc - 1)
        reports := s.reports ++ [{ op := op, addr := s.pc }] }

/-- R88 (with the spec's decisions D6 and D22): the cost of every instruction that completes, as one step, for every type of the
budget (log entry 17). -/
def Obligations.StepCostTable : Prop :=
  ∀ (s t : State) (i : Instr) (rest : List Byte), s.executing → decode s.cfg s.window = .ok (i, rest) →
    step s = .next t → ((∃ abs, i = .jsr abs) → s.sp ≠ 0xFFFF) →
    t.cyc = s.cfg.narrow (s.cyc - (i.cost s.cfg : Int)) ∧ 1 ≤ i.cost s.cfg ∧ i.cost s.cfg ≤ s.cfg.maxCost

/-! ## Frames -/

/-- R106 (the spec's own derivation): a load writes no memory byte, no register but A, no flag but Z and N, and no engine state but
PC and CYC; what A held before is not read. -/
def Obligations.LoadFrame : Prop :=
  ∀ (i : Instr) (s t : State), (∃ b, i = .ldaImm b ∨ i = .ldaZp b ∨ i = .ldaZpX b) → exec i s = .next t →
    t.x = s.x ∧ t.y = s.y ∧ t.sp = s.sp ∧
    t.flagC = s.flagC ∧ t.flagI = s.flagI ∧ t.flagD = s.flagD ∧ t.flagB = s.flagB ∧ t.flagV = s.flagV ∧
    t.run = s.run ∧ t.fault = s.fault ∧ t.init = s.init ∧ t.cfg = s.cfg ∧
    t.requests = s.requests ∧ t.replies = s.replies ∧ t.reports = s.reports ∧
    (∀ b, t.mem.read b = s.mem.read b) ∧
    ∀ old : Byte, exec i { s with a := old } = .next t

/-- JSR's frame: no register but SP and PC, no flag, and of memory only the two bytes at the address it pushes to; the engine
state FAULT and RUN and the reply output change only where the push faults. The two bytes upward from SP are the spec's decision D5
(log entry 7); that a push at SP = 0xFFFF faults, and how the fault is taken, its decisions D9 and D7 (log entries 9 and 8). -/
def Obligations.JsrFrame : Prop :=
  ∀ (abs : Word) (s t : State), exec (.jsr abs) s = .next t →
    t.a = s.a ∧ t.x = s.x ∧ t.y = s.y ∧
    t.flagC = s.flagC ∧ t.flagZ = s.flagZ ∧ t.flagI = s.flagI ∧ t.flagD = s.flagD ∧ t.flagB = s.flagB ∧
    t.flagV = s.flagV ∧ t.flagN = s.flagN ∧
    t.init = s.init ∧ t.cfg = s.cfg ∧ t.requests = s.requests ∧ t.reports = s.reports ∧
    (s.sp ≠ 0xFFFF → t.fault = s.fault ∧ t.run = s.run ∧ t.replies = s.replies) ∧
    (∀ a, pushAddress s = a → ∀ b, b < a ∨ a + 2 ≤ b → t.mem.read b = s.mem.read b)

/-- The unhandled opcode's frame: no register, flag, engine state or memory byte. -/
def Obligations.UnhandledFrame : Prop :=
  ∀ (op : Byte) (s t : State), exec (.unhandled op) s = .next t →
    t.a = s.a ∧ t.x = s.x ∧ t.y = s.y ∧ t.pc = s.pc ∧ t.sp = s.sp ∧
    t.flagC = s.flagC ∧ t.flagZ = s.flagZ ∧ t.flagI = s.flagI ∧ t.flagD = s.flagD ∧ t.flagB = s.flagB ∧
    t.flagV = s.flagV ∧ t.flagN = s.flagN ∧
    t.run = s.run ∧ t.cyc = s.cyc ∧ t.fault = s.fault ∧ t.init = s.init ∧ t.cfg = s.cfg ∧
    t.requests = s.requests ∧ t.replies = s.replies ∧ ∀ b, t.mem.read b = s.mem.read b

/-! ## Rules about the whole machine -/

/-- R22: no instruction reads or writes Y, and reset clears it. -/
def Obligations.YIsNeitherReadNorWritten : Prop :=
  (∀ (i : Instr) (s t : State) (v : Byte), exec i s = .next t →
    t.y = s.y ∧ exec i { s with y := v } = .next { t with y := v }) ∧
  (∀ s : State, s.performReset.y = 0x00)

/-- R21: X is written by no instruction and read only by LDA zero page,X, whose address is the operand plus X; reset clears it, and
after reset it changes only through the host's register access. -/
def Obligations.XIsReadOnlyByIndexedLoad : Prop :=
  (∀ (i : Instr) (s t : State) (v : Byte), exec i s = .next t →
    t.x = s.x ∧ ((∀ zp, i ≠ .ldaZpX zp) → exec i { s with x := v } = .next { t with x := v })) ∧
  (∀ (zp : Byte) (s t : State), exec (.ldaZpX zp) s = .next t →
    t.a = s.mem.read ((zp.toNat + s.x.toNat) % 256)) ∧
  (∀ s : State, s.performReset.x = 0x00) ∧
  (∀ s t : State, step s = .next t → t.x ≠ s.x →
    s.init = false ∨ s.run = .halted ∧
      ∃ rest, s.requests = .reset :: rest ∨ ∃ v, s.requests = .writeByteReg .x v :: rest)

/-- R20: A is written only by the three loads, each of which replaces all 8 bits, no instruction reads it as a source, and reset clears
it. -/
def Obligations.AccumulatorIsWrittenOnlyByLoads : Prop :=
  (∀ (i : Instr) (s t : State) (v : Byte), exec i s = .next t →
    ((∃ b, i = .ldaImm b ∨ i = .ldaZp b ∨ i = .ldaZpX b) → exec i { s with a := v } = .next t) ∧
    ((∃ w, i = .jsr w) ∨ (∃ op, i = .unhandled op) →
      t.a = s.a ∧ exec i { s with a := v } = .next { t with a := v })) ∧
  (∀ s : State, s.performReset.a = 0x00)

/-- C, I, D, B and V are inert storage (R28, with the spec's decisions D14 and D15): a run's step keeps them, and does the same to
everything else whatever they hold. -/
def Obligations.InertFlagsAreInert : Prop :=
  ∀ (s t : State) (c i d b v : Bool), s.executing → step s = .next t →
    t.flagC = s.flagC ∧ t.flagI = s.flagI ∧ t.flagD = s.flagD ∧ t.flagB = s.flagB ∧ t.flagV = s.flagV ∧
    step { s with flagC := c, flagI := i, flagD := d, flagB := b, flagV := v } =
      .next { t with flagC := c, flagI := i, flagD := d, flagB := b, flagV := v }

/-- R27 and R101: Z and N are written together by the loads, from the A they leave, with no other flag touched; JSR and unhandled
opcodes keep both. -/
def Obligations.ZeroAndNegativeFollowLoads : Prop :=
  ∀ (i : Instr) (s t : State), exec i s = .next t →
    ((∃ b, i = .ldaImm b ∨ i = .ldaZp b ∨ i = .ldaZpX b) →
      t.flagZ = decide (t.a = 0x00) ∧ t.flagN = decide (0x80 ≤ t.a.toNat) ∧
      t.flagC = s.flagC ∧ t.flagI = s.flagI ∧ t.flagD = s.flagD ∧ t.flagB = s.flagB ∧ t.flagV = s.flagV) ∧
    ((∃ w, i = .jsr w) ∨ (∃ op, i = .unhandled op) → t.flagZ = s.flagZ ∧ t.flagN = s.flagN)

/-- R131 (the spec's own derivation): no fetch raises OutOfRange, and of all instructions only JSR's push at SP = 0xFFFF does, with
the address 0x10000 (decisions D7 and D9, log entries 8 and 9); a host load beyond memory gives the host that error and leaves FAULT
(decision D20, log entry 14). -/
def Obligations.OnlyJsrPushFaults : Prop :=
  (∀ s : State, ∃ i t, fetchInstr s = .done i t) ∧
  (∀ (i : Instr) (s t : State), exec i s = .next t →
    ((∃ abs, i = .jsr abs) ∧ s.sp = 0xFFFF → t.fault = some (.outOfRange 0x10000)) ∧
    (¬ ((∃ abs, i = .jsr abs) ∧ s.sp = 0xFFFF) → t.fault = s.fault)) ∧
  (∀ (s : State) (a : Nat) (v : Byte), 65536 ≤ a →
    s.hostLoad a v = { s with replies := s.replies ++ [.outOfRange a] })

/-- After the first reset no step stops: every instruction completes or takes its fault, and every request is served. That JSR at
SP = 0xFFFF answers a next state too, with the fault taken in it, is the spec's decision D7 as the model takes it (log entry 8). -/
def Obligations.NoStepStopsAfterReset : Prop :=
  (∀ (i : Instr) (s : State), ∃ t, exec i s = .next t) ∧
  (∀ s : State, s.init = true → ∃ t, step s = .next t)

/-- FAULT is sticky (R33, with the spec's decisions D7 and D13): in a state that meets the invariant, a step changes a recorded fault
only by serving a reset, and then clears it. -/
def Obligations.FaultIsClearedOnlyByReset : Prop :=
  ∀ (s t : State) (f : Fault), s.Inv → s.init = true → s.fault = some f → step s = .next t →
    t.fault = some f ∨ (t.fault = none ∧ ∃ rest, s.requests = .reset :: rest)

/-- Reports are append-only, and a step adds one exactly when it executes an unhandled opcode (R35 and R133, with the spec's
decision D11). -/
def Obligations.ReportsAppendOnlyUnhandled : Prop :=
  ∀ s t : State, step s = .next t →
    (s.executing ∧ s.cfg.bound (s.byteAt s.pc) = false →
      t.reports = s.reports ++ [{ op := s.byteAt s.pc, addr := s.pc }]) ∧
    (¬ (s.executing ∧ s.cfg.bound (s.byteAt s.pc) = false) → t.reports = s.reports)

/-- While a run is executing the host has no move (R156, with the spec's decision D20): its requests wait, and the step does the same
whatever they are. -/
def Obligations.HostHasNoMoveDuringRun : Prop :=
  ∀ (s t : State) (q : List HostRequest), s.init = true → s.run = .running → step s = .next t →
    t.requests = s.requests ∧ step { s with requests := q } = .next { t with requests := q }

/-- The machine's parameters never change. -/
def Obligations.ParametersNeverChange : Prop :=
  ∀ s t : State, step s = .next t → t.cfg = s.cfg

/-! ## Runs -/

/-- The budget is tested before an opcode is fetched and never inside an instruction; a budget of zero or below, as the counter holds
it, executes nothing and changes only CYC and RUN, besides the host's request and reply (R82). The reply (result, CYC) is R94's, the
spec's decision D10; that a run's end is a pass of its own, R81's loop as the model steps it (log entry 6); the request and reply lists
are the model's (log entries 3 and 4). -/
def Obligations.BudgetTestedBetweenInstructions : Prop :=
  (∀ s : State, s.executing → ∃ i rest t, decode s.cfg s.window = .ok (i, rest) ∧
    exec i (s.fetched i.length) = .next t ∧ step s = .next t) ∧
  (∀ s : State, s.init = true → s.run = .running → s.cyc ≤ 0 →
    step s = .next { s with run := .halted, replies := s.replies ++ [.ran .halted s.cyc] }) ∧
  (∀ (s : State) (budget : Int) (rest : List HostRequest),
    s.init = true → s.run = .halted → s.fault = none → s.requests = .run budget :: rest →
    s.cfg.narrow budget ≤ 0 →
    step s = .next { s with
      requests := rest
      cyc := s.cfg.narrow budget
      run := .halted
      replies := s.replies ++ [.ran .halted (s.cfg.narrow budget)] })

/-- R80 (with the spec's decisions D12 and D13): a run is refused before the first reset, returns the recorded fault at once after a
fault, and else starts executing. -/
def Obligations.RunRequest : Prop :=
  ∀ (s : State) (budget : Int) (rest : List HostRequest), s.requests = .run budget :: rest →
    (s.init = false → step s = .refused .beforeFirstReset) ∧
    (∀ f, s.init = true → s.run = .halted → s.fault = some f →
      step s = .next { s with
        requests := rest
        cyc := s.cfg.narrow budget
        replies := s.replies ++ [.ran (.error f) (s.cfg.narrow budget)] }) ∧
    (s.init = true → s.run = .halted → s.fault = none → 0 < s.cfg.narrow budget →
      step s = .next { s with requests := rest, cyc := s.cfg.narrow budget, run := .running })

/-- A run request with budget 1 is a single step (R143, the spec's own derivation; the fault that may end it is log entry 8): with a
counter wide enough, the first step starts the run, the second executes the whole instruction at PC, and the step after that ends
the run or the fault has ended it. -/
def Obligations.BudgetOneRunsOneInstruction : Prop :=
  ∀ (s : State) (rest : List HostRequest), s.cfg.budgetWide = true →
    s.init = true → s.run = .halted → s.fault = none → s.requests = .run 1 :: rest →
    ∃ s1 i r t, step s = .next s1 ∧ s1.executing ∧ decode s1.cfg s1.window = .ok (i, r) ∧
      exec i (s1.fetched i.length) = .next t ∧ step s1 = .next t ∧ t.cyc ≤ 0 ∧
      (t.run = .halted ∨ step t = .next { t with run := .halted, replies := t.replies ++ [.ran .halted t.cyc] })

/-- CORE leaves Halted only by a run request with a budget that is positive as the counter holds it and no fault recorded, and
enters it only when a run ends (R144), which is the budget's end or JSR's fault at SP = 0xFFFF (R131 and R132, with the spec's
decisions D7 and D9; log entries 8 and 9); while Halted only a reset, host register and memory access, and a run request's own
loading of CYC change any item of state, and an idle step changes nothing. -/
def Obligations.OnlyRunLeavesHalted : Prop :=
  (∀ s t : State, s.init = true → s.run = .halted → step s = .next t →
    (t.run = .running ↔ s.fault = none ∧ ∃ budget rest, s.requests = .run budget :: rest ∧ 0 < s.cfg.narrow budget)) ∧
  (∀ s t : State, s.init = true → s.run = .running → step s = .next t → t.run = .halted →
    (s.cyc ≤ 0 ∧ t = { s with run := .halted, replies := s.replies ++ [.ran .halted s.cyc] }) ∨
    (s.sp = 0xFFFF ∧ t.fault = some (.outOfRange 0x10000))) ∧
  (∀ s t : State, s.init = true → s.run = .halted → step s = .next t →
    t = { s with requests := t.requests, replies := t.replies } ∨
    ∃ r rest, s.requests = r :: rest ∧
      (r = .reset ∨ (∃ a v, r = .loadByte a v) ∨ (∃ q v, r = .writeByteReg q v) ∨ (∃ q v, r = .writeWordReg q v) ∨
        (∃ f v, r = .writeFlag f v) ∨ ∃ budget, r = .run budget)) ∧
  (∀ s : State, s.run = .halted → s.requests = [] → step s = .next s)

/-- Every run ends (R89 and R90, the spec's own derivations; the pair handed to the host is R94's, the spec's decision D10; the
fault end is its decisions D7 and D9, log entries 8 and 9; the reply list is the model's, log entry 4): from any state with a run
in progress that meets the invariant, some number of steps reaches Halted and has handed the host the result and CYC; a normal end
leaves `1 − MAXCOST ≤ CYC ≤ 0`, and the only other end is JSR's fault. -/
def Obligations.EveryRunEnds : Prop :=
  ∀ s : State, s.Inv → s.init = true → s.run = .running →
    ∃ k t result, k ≤ s.cyc.toNat + 1 ∧ core.run k s = .next t ∧ t.run = .halted ∧
      t.replies = s.replies ++ [.ran result t.cyc] ∧
      ((result = .halted ∧ t.fault = none ∧ 1 - (s.cfg.maxCost : Int) ≤ t.cyc ∧ t.cyc ≤ 0) ∨
       (result = .error (.outOfRange 0x10000) ∧ t.fault = some (.outOfRange 0x10000)))

/-- A run in unloaded memory (R160, the spec's own derivation): with every byte 0x00 and 0x00 bound to no handler, `k` units of budget
execute `k` unhandled opcodes, each with its report (the spec's decision D11, log entries 4 and 13), and change nothing but PC, CYC and
the reports; CYC is a value the counter holds, which the invariant says of every run. -/
def Obligations.UnloadedMemoryRunsUnhandled : Prop :=
  ∀ (k : Nat) (s : State), s.init = true → s.run = .running → s.cfg.bound 0x00 = false →
    (∀ a, s.mem.read a = 0x00) → s.cfg.narrow s.cyc = s.cyc → (k : Int) ≤ s.cyc →
    core.run k s = .next { s with
      pc := s.pc + BitVec.ofNat 16 k
      cyc := s.cyc - (k : Int)
      reports := s.reports ++ (List.range k).map fun j => { op := 0x00, addr := s.pc + BitVec.ofNat 16 j } }

/-- The stack grows by two bytes a call (R123, the spec's own derivation): as many calls as fit below the top of memory complete, move
SP up by two each and write only the bytes they push to. -/
def Obligations.CallsGrowStackByTwo : Prop :=
  ∀ (targets : List Word) (s : State), s.sp.toNat + 2 * targets.length ≤ 65536 →
    ∃ t, execAll (targets.map .jsr) s = .next t ∧
      t.sp = s.sp + BitVec.ofNat 16 (2 * targets.length) ∧ t.fault = s.fault ∧
      ∀ b, b < s.sp.toNat ∨ s.sp.toNat + 2 * targets.length ≤ b → t.mem.read b = s.mem.read b

/-! ## Reset and the host -/

/-- Reset served from any state in which no run is executing (R150, its parameters and fault record the spec's decisions D1, D2, D7 and
D12): every item takes its reset value, CYC and the outputs stay. -/
def Obligations.ResetSetsEveryItem : Prop :=
  ∀ (s : State) (rest : List HostRequest), s.requests = .reset :: rest → s.init = false ∨ s.run = .halted →
    ∃ t, step s = .next t ∧
      t.pc = s.cfg.resetPc ∧ t.sp = s.cfg.resetSp ∧ t.a = 0x00 ∧ t.x = 0x00 ∧ t.y = 0x00 ∧
      t.flagC = false ∧ t.flagZ = false ∧ t.flagI = false ∧ t.flagD = false ∧ t.flagB = false ∧
      t.flagV = false ∧ t.flagN = false ∧ (∀ a, t.mem.read a = 0x00) ∧
      t.fault = none ∧ t.run = .halted ∧ t.init = true ∧
      t.cyc = s.cyc ∧ t.cfg = s.cfg ∧ t.requests = rest ∧ t.replies = s.replies ∧ t.reports = s.reports

/-- Reset does not depend on the state before it, and twice is as good as once (R151, the spec's own derivation): from any two states of
one machine, the results differ at most in CYC, which reset does not set, and in the host's lists. -/
def Obligations.ResetForgetsTheState : Prop :=
  ∀ s t : State, s.cfg = t.cfg →
    s.performReset =
      { t.performReset with cyc := s.cyc, requests := s.requests, replies := s.replies, reports := s.reports } ∧
    s.performReset.performReset = s.performReset

/-- `State.reset` is what reset makes, with the default parameters: PC 0xFFFC and SP 0x0100 are the spec's decisions D1 and D2 and CYC 0
the model's own choice (log entries 1 and 2). -/
def Obligations.ResetStateValues : Prop :=
  State.reset.pc = 0xFFFC ∧ State.reset.sp = 0x0100 ∧ State.reset.a = 0x00 ∧ State.reset.x = 0x00 ∧
  State.reset.y = 0x00 ∧ State.reset.run = .halted ∧ State.reset.fault = none ∧ State.reset.init = true ∧
  (∀ a, State.reset.mem.read a = 0x00) ∧ State.reset.performReset = State.reset

/-- Before the first reset every request but reset is refused (R152, with the spec's decision D12). -/
def Obligations.RefusedBeforeFirstReset : Prop :=
  ∀ (s : State) (r : HostRequest) (rest : List HostRequest), s.init = false → s.requests = r :: rest →
    (step s = .refused .beforeFirstReset ↔ r ≠ .reset)

/-- The host's writes, served (R156, with the spec's decisions D20 and D21; log entries 3 and 14): loading a byte changes that byte
alone and answers ok, and writing a register or flag changes it alone and answers nothing, the request taken apart; the next state is
given whole. -/
def Obligations.HostWritesReadBack : Prop :=
  ∀ (s : State) (rest : List HostRequest), s.init = true → s.run = .halted →
    (∀ (a : Nat) (v : Byte), a < 65536 → s.requests = .loadByte a v :: rest →
      ∃ m, step s = .next { s with requests := rest, mem := m, replies := s.replies ++ [.loaded] } ∧
        m.read a = v ∧ ∀ b, b ≠ a → m.read b = s.mem.read b) ∧
    (∀ v, s.requests = .writeByteReg .a v :: rest → step s = .next { s with requests := rest, a := v }) ∧
    (∀ v, s.requests = .writeByteReg .x v :: rest → step s = .next { s with requests := rest, x := v }) ∧
    (∀ v, s.requests = .writeByteReg .y v :: rest → step s = .next { s with requests := rest, y := v }) ∧
    (∀ v, s.requests = .writeWordReg .pc v :: rest → step s = .next { s with requests := rest, pc := v }) ∧
    (∀ v, s.requests = .writeWordReg .sp v :: rest → step s = .next { s with requests := rest, sp := v }) ∧
    (∀ v, s.requests = .writeFlag .c v :: rest → step s = .next { s with requests := rest, flagC := v }) ∧
    (∀ v, s.requests = .writeFlag .z v :: rest → step s = .next { s with requests := rest, flagZ := v }) ∧
    (∀ v, s.requests = .writeFlag .i v :: rest → step s = .next { s with requests := rest, flagI := v }) ∧
    (∀ v, s.requests = .writeFlag .d v :: rest → step s = .next { s with requests := rest, flagD := v }) ∧
    (∀ v, s.requests = .writeFlag .b v :: rest → step s = .next { s with requests := rest, flagB := v }) ∧
    (∀ v, s.requests = .writeFlag .v v :: rest → step s = .next { s with requests := rest, flagV := v }) ∧
    (∀ v, s.requests = .writeFlag .n v :: rest → step s = .next { s with requests := rest, flagN := v }) ∧
    -- what is written reads back, and every other register and flag of its kind reads as before
    (∀ (r q : ByteReg) (v : Byte), (s.setByteReg r v).getByteReg q = if q = r then v else s.getByteReg q) ∧
    (∀ (r q : WordReg) (v : Word), (s.setWordReg r v).getWordReg q = if q = r then v else s.getWordReg q) ∧
    (∀ (f g : FlagName) (v : Bool), (s.setFlag f v).getFlag g = if g = f then v else s.getFlag g)

/-! ## The invariant -/

/-- The state after reset meets the invariant. -/
def Obligations.ResetMeetsInvariant : Prop := State.reset.Inv

/-- Every step keeps the invariant: the parameters' constraint and the counter's width (log entries 1 and 17), the canonical memory (log
entry 11), a CYC the counter holds, and of a run in progress that no fault is recorded (R80, decision D7) and the budget is overshot by
less than one instruction (R89). -/
def Obligations.StepKeepsInvariant : Prop :=
  ∀ s t : State, s.Inv → step s = .next t → t.Inv

/-! ## The host's reads and the budget's type -/

/-- The host's reads and its accesses beyond memory, served (R156, with the spec's decisions D20 and D21; log entries 3 and 14): a read
answers the byte, register or flag and a byte access at 65536 or above answers OutOfRange, and nothing but the request taken and the
reply given changes, FAULT not either. -/
def Obligations.HostReadsAnswerAndChangeNothing : Prop :=
  ∀ (s : State) (rest : List HostRequest), s.init = true → s.run = .halted →
    (∀ a, a < 65536 → s.requests = .readByte a :: rest →
      step s = .next { s with requests := rest, replies := s.replies ++ [.byte (s.mem.read a)] }) ∧
    (∀ a v, 65536 ≤ a → s.requests = .readByte a :: rest ∨ s.requests = .loadByte a v :: rest →
      step s = .next { s with requests := rest, replies := s.replies ++ [.outOfRange a] }) ∧
    (∀ r v, s.requests = .readByteReg r :: rest →
      (r = .a ∧ v = s.a ∨ r = .x ∧ v = s.x ∨ r = .y ∧ v = s.y) →
      step s = .next { s with requests := rest, replies := s.replies ++ [.byteReg r v] }) ∧
    (∀ r v, s.requests = .readWordReg r :: rest → (r = .pc ∧ v = s.pc ∨ r = .sp ∧ v = s.sp) →
      step s = .next { s with requests := rest, replies := s.replies ++ [.wordReg r v] }) ∧
    (∀ f v, s.requests = .readFlag f :: rest →
      (f = .c ∧ v = s.flagC ∨ f = .z ∧ v = s.flagZ ∨ f = .i ∧ v = s.flagI ∨ f = .d ∧ v = s.flagD ∨
        f = .b ∧ v = s.flagB ∨ f = .v ∧ v = s.flagV ∨ f = .n ∧ v = s.flagN) →
      step s = .next { s with requests := rest, replies := s.replies ++ [.flag f v] })

/-- The budget's type as a parameter (R6 and D10; log entry 17): the default counter holds every integer; a signed counter of `w + 1`
bits holds exactly the integers from `−2^w` to `2^w − 1` and differs from what is put in by a multiple of `2^(w + 1)`; and in a state
that meets the invariant no instruction of a run makes it wrap. -/
def Obligations.BudgetCounterRange : Prop :=
  (∀ (cfg : Config) (n : Int), cfg.budget = .integer → cfg.narrow n = n) ∧
  (∀ (cfg : Config) (w : Nat) (n : Int), cfg.budget = .signed (w + 1) →
    -(2 ^ w : Int) ≤ cfg.narrow n ∧ cfg.narrow n < 2 ^ w ∧ (2 ^ (w + 1) : Int) ∣ cfg.narrow n - n ∧
    (cfg.narrow n = n ↔ -(2 ^ w : Int) ≤ n ∧ n < 2 ^ w)) ∧
  (∀ (s : State) (i : Instr), s.Inv → s.executing →
    s.cfg.narrow (s.cyc - (i.cost s.cfg : Int)) = s.cyc - (i.cost s.cfg : Int))
end

