-- ==== Sys2Proof/Laws/Bits.lean ====
section
/-! SUPPORT. The conversions between bytes and words as arithmetic. -/

namespace Sys2Proof

@[simp] theorem lo8_eq_ofNat (w : Word) : lo8 w = BitVec.ofNat 8 (w.toNat % 256) := by
  apply BitVec.eq_of_toNat_eq
  simp [lo8]

@[simp] theorem hi8_eq_ofNat (w : Word) : hi8 w = BitVec.ofNat 8 (w.toNat / 256) := by
  apply BitVec.eq_of_toNat_eq
  simp [hi8, Nat.shiftRight_eq_div_pow]

theorem toNat_zext16 (b : Byte) : (zext16 b).toNat = b.toNat := by
  have := b.isLt
  simp [zext16]
  omega

theorem toNat_joinBytes (lo hi : Byte) : (joinBytes lo hi).toNat = lo.toNat + 256 * hi.toNat := by
  have hlo := lo.isLt
  have hhi := hi.isLt
  have h : hi.toNat <<< 8 ||| lo.toNat = hi.toNat <<< 8 + lo.toNat := (Nat.shiftLeft_add_eq_or_of_lt hlo _).symm
  have hs : hi.toNat <<< 8 = hi.toNat * 256 := by simp [Nat.shiftLeft_eq]
  have hm : hi.toNat <<< 8 % 65536 = hi.toNat <<< 8 := by rw [hs]; omega
  simp only [joinBytes, BitVec.toNat_or, BitVec.toNat_shiftLeft, toNat_zext16]
  norm_num only
  rw [hm, Nat.or_comm, h, hs]
  omega

theorem joinBytes_eq_ofNat (lo hi : Byte) : joinBytes lo hi = BitVec.ofNat 16 (lo.toNat + 256 * hi.toNat) := by
  apply BitVec.eq_of_toNat_eq
  have hlo := lo.isLt
  have hhi := hi.isLt
  rw [toNat_joinBytes, BitVec.toNat_ofNat]
  omega

/-- A word is its two bytes joined. -/
theorem joinBytes_lo8_hi8 (w : Word) : joinBytes (lo8 w) (hi8 w) = w := by
  apply BitVec.eq_of_toNat_eq
  have := w.isLt
  rw [toNat_joinBytes]
  simp
  omega

/-- The low byte of two joined bytes is the first. -/
theorem lo8_joinBytes (lo hi : Byte) : lo8 (joinBytes lo hi) = lo := by
  apply BitVec.eq_of_toNat_eq
  have := lo.isLt
  rw [lo8_eq_ofNat, toNat_joinBytes]
  simp
  omega

/-- The high byte of two joined bytes is the second. -/
theorem hi8_joinBytes (lo hi : Byte) : hi8 (joinBytes lo hi) = hi := by
  apply BitVec.eq_of_toNat_eq
  have := lo.isLt
  have := hi.isLt
  rw [hi8_eq_ofNat, toNat_joinBytes]
  simp
  omega

namespace Machine

theorem toNat_effZeroPage (zp : Byte) : (effZeroPage zp).toNat = zp.toNat := toNat_zext16 zp

theorem toNat_effZeroPageX (zp x : Byte) : (effZeroPageX zp x).toNat = (zp.toNat + x.toNat) % 256 := by
  rw [effZeroPageX, toNat_zext16]
  simp

theorem zeroOf_eq_decide (r : Byte) : zeroOf r = decide (r = 0x00) := rfl

theorem negativeOf_eq_decide (r : Byte) : negativeOf r = decide (0x80 ≤ r.toNat) := by
  rw [negativeOf, ← BitVec.msb_eq_getLsbD_last r, BitVec.msb_eq_decide]

end Machine

end Sys2Proof
end

