-- ==== Sys2Proof/Laws/Counter.lean ====
section
/-! SUPPORT. The budget's counter: wrapping late is wrapping at every deduction, and what it holds it keeps. -/

namespace Sys2Proof

/-- Putting a held value into the counter again changes nothing. -/
@[simp] theorem narrow_narrow (cfg : Config) (n : Int) : cfg.narrow (cfg.narrow n) = cfg.narrow n := by
  unfold Config.narrow
  cases cfg.budget with
  | integer => rfl
  | signed width => exact Int.bmod_bmod ..

/-- A deduction from a held value is a deduction from the integer that was put in. -/
theorem narrow_sub (cfg : Config) (n m : Int) : cfg.narrow (cfg.narrow n - m) = cfg.narrow (n - m) := by
  unfold Config.narrow
  cases cfg.budget with
  | integer => rfl
  | signed width => simp

/-- Two deductions are one deduction of their sum. -/
theorem narrow_sub_sub (cfg : Config) (c : Int) (m n : Nat) :
    cfg.narrow (cfg.narrow (c - (m : Int)) - (n : Int)) = cfg.narrow (c - ((m + n : Nat) : Int)) := by
  rw [narrow_sub, Nat.cast_add, Int.sub_sub]

/-- The default counter holds every integer. -/
theorem narrow_integer {cfg : Config} (h : cfg.budget = .integer) (n : Int) : cfg.narrow n = n := by
  simp [Config.narrow, h]

end Sys2Proof
end

