-- ==== Sys2Proof/Laws/State.lean ====
section
/-! SUPPORT. One lemma per field of State per named update: what the field holds after it. -/

namespace Sys2Proof.Machine
section
variable (s : State) (n : Nat)
@[simp] theorem State.deduct_a : (s.deduct n).a = s.a := rfl
@[simp] theorem State.deduct_x : (s.deduct n).x = s.x := rfl
@[simp] theorem State.deduct_y : (s.deduct n).y = s.y := rfl
@[simp] theorem State.deduct_pc : (s.deduct n).pc = s.pc := rfl
@[simp] theorem State.deduct_sp : (s.deduct n).sp = s.sp := rfl
@[simp] theorem State.deduct_flagC : (s.deduct n).flagC = s.flagC := rfl
@[simp] theorem State.deduct_flagZ : (s.deduct n).flagZ = s.flagZ := rfl
@[simp] theorem State.deduct_flagI : (s.deduct n).flagI = s.flagI := rfl
@[simp] theorem State.deduct_flagD : (s.deduct n).flagD = s.flagD := rfl
@[simp] theorem State.deduct_flagB : (s.deduct n).flagB = s.flagB := rfl
@[simp] theorem State.deduct_flagV : (s.deduct n).flagV = s.flagV := rfl
@[simp] theorem State.deduct_flagN : (s.deduct n).flagN = s.flagN := rfl
@[simp] theorem State.deduct_run : (s.deduct n).run = s.run := rfl
@[simp] theorem State.deduct_cyc : (s.deduct n).cyc = s.cfg.narrow (s.cyc - (n : Int)) := rfl
@[simp] theorem State.deduct_fault : (s.deduct n).fault = s.fault := rfl
@[simp] theorem State.deduct_init : (s.deduct n).init = s.init := rfl
@[simp] theorem State.deduct_mem : (s.deduct n).mem = s.mem := rfl
@[simp] theorem State.deduct_cfg : (s.deduct n).cfg = s.cfg := rfl
@[simp] theorem State.deduct_requests : (s.deduct n).requests = s.requests := rfl
@[simp] theorem State.deduct_replies : (s.deduct n).replies = s.replies := rfl
@[simp] theorem State.deduct_reports : (s.deduct n).reports = s.reports := rfl

end

section
variable (s : State) (n : Int)
@[simp] theorem State.loadBudget_a : (s.loadBudget n).a = s.a := rfl
@[simp] theorem State.loadBudget_x : (s.loadBudget n).x = s.x := rfl
@[simp] theorem State.loadBudget_y : (s.loadBudget n).y = s.y := rfl
@[simp] theorem State.loadBudget_pc : (s.loadBudget n).pc = s.pc := rfl
@[simp] theorem State.loadBudget_sp : (s.loadBudget n).sp = s.sp := rfl
@[simp] theorem State.loadBudget_flagC : (s.loadBudget n).flagC = s.flagC := rfl
@[simp] theorem State.loadBudget_flagZ : (s.loadBudget n).flagZ = s.flagZ := rfl
@[simp] theorem State.loadBudget_flagI : (s.loadBudget n).flagI = s.flagI := rfl
@[simp] theorem State.loadBudget_flagD : (s.loadBudget n).flagD = s.flagD := rfl
@[simp] theorem State.loadBudget_flagB : (s.loadBudget n).flagB = s.flagB := rfl
@[simp] theorem State.loadBudget_flagV : (s.loadBudget n).flagV = s.flagV := rfl
@[simp] theorem State.loadBudget_flagN : (s.loadBudget n).flagN = s.flagN := rfl
@[simp] theorem State.loadBudget_run : (s.loadBudget n).run = s.run := rfl
@[simp] theorem State.loadBudget_cyc : (s.loadBudget n).cyc = s.cfg.narrow n := rfl
@[simp] theorem State.loadBudget_fault : (s.loadBudget n).fault = s.fault := rfl
@[simp] theorem State.loadBudget_init : (s.loadBudget n).init = s.init := rfl
@[simp] theorem State.loadBudget_mem : (s.loadBudget n).mem = s.mem := rfl
@[simp] theorem State.loadBudget_cfg : (s.loadBudget n).cfg = s.cfg := rfl
@[simp] theorem State.loadBudget_requests : (s.loadBudget n).requests = s.requests := rfl
@[simp] theorem State.loadBudget_replies : (s.loadBudget n).replies = s.replies := rfl
@[simp] theorem State.loadBudget_reports : (s.loadBudget n).reports = s.reports := rfl

end

section
variable (s : State) (n : Nat)
@[simp] theorem State.advancePc_a : (s.advancePc n).a = s.a := rfl
@[simp] theorem State.advancePc_x : (s.advancePc n).x = s.x := rfl
@[simp] theorem State.advancePc_y : (s.advancePc n).y = s.y := rfl
@[simp] theorem State.advancePc_pc : (s.advancePc n).pc = s.pc + BitVec.ofNat 16 n := rfl
@[simp] theorem State.advancePc_sp : (s.advancePc n).sp = s.sp := rfl
@[simp] theorem State.advancePc_flagC : (s.advancePc n).flagC = s.flagC := rfl
@[simp] theorem State.advancePc_flagZ : (s.advancePc n).flagZ = s.flagZ := rfl
@[simp] theorem State.advancePc_flagI : (s.advancePc n).flagI = s.flagI := rfl
@[simp] theorem State.advancePc_flagD : (s.advancePc n).flagD = s.flagD := rfl
@[simp] theorem State.advancePc_flagB : (s.advancePc n).flagB = s.flagB := rfl
@[simp] theorem State.advancePc_flagV : (s.advancePc n).flagV = s.flagV := rfl
@[simp] theorem State.advancePc_flagN : (s.advancePc n).flagN = s.flagN := rfl
@[simp] theorem State.advancePc_run : (s.advancePc n).run = s.run := rfl
@[simp] theorem State.advancePc_cyc : (s.advancePc n).cyc = s.cyc := rfl
@[simp] theorem State.advancePc_fault : (s.advancePc n).fault = s.fault := rfl
@[simp] theorem State.advancePc_init : (s.advancePc n).init = s.init := rfl
@[simp] theorem State.advancePc_mem : (s.advancePc n).mem = s.mem := rfl
@[simp] theorem State.advancePc_cfg : (s.advancePc n).cfg = s.cfg := rfl
@[simp] theorem State.advancePc_requests : (s.advancePc n).requests = s.requests := rfl
@[simp] theorem State.advancePc_replies : (s.advancePc n).replies = s.replies := rfl
@[simp] theorem State.advancePc_reports : (s.advancePc n).reports = s.reports := rfl

end

section
variable (s : State) (n : Nat)
@[simp] theorem State.fetched_a : (s.fetched n).a = s.a := rfl
@[simp] theorem State.fetched_x : (s.fetched n).x = s.x := rfl
@[simp] theorem State.fetched_y : (s.fetched n).y = s.y := rfl
@[simp] theorem State.fetched_pc : (s.fetched n).pc = s.pc + BitVec.ofNat 16 n := rfl
@[simp] theorem State.fetched_sp : (s.fetched n).sp = s.sp := rfl
@[simp] theorem State.fetched_flagC : (s.fetched n).flagC = s.flagC := rfl
@[simp] theorem State.fetched_flagZ : (s.fetched n).flagZ = s.flagZ := rfl
@[simp] theorem State.fetched_flagI : (s.fetched n).flagI = s.flagI := rfl
@[simp] theorem State.fetched_flagD : (s.fetched n).flagD = s.flagD := rfl
@[simp] theorem State.fetched_flagB : (s.fetched n).flagB = s.flagB := rfl
@[simp] theorem State.fetched_flagV : (s.fetched n).flagV = s.flagV := rfl
@[simp] theorem State.fetched_flagN : (s.fetched n).flagN = s.flagN := rfl
@[simp] theorem State.fetched_run : (s.fetched n).run = s.run := rfl
@[simp] theorem State.fetched_cyc : (s.fetched n).cyc = s.cfg.narrow (s.cyc - (n : Int)) := rfl
@[simp] theorem State.fetched_fault : (s.fetched n).fault = s.fault := rfl
@[simp] theorem State.fetched_init : (s.fetched n).init = s.init := rfl
@[simp] theorem State.fetched_mem : (s.fetched n).mem = s.mem := rfl
@[simp] theorem State.fetched_cfg : (s.fetched n).cfg = s.cfg := rfl
@[simp] theorem State.fetched_requests : (s.fetched n).requests = s.requests := rfl
@[simp] theorem State.fetched_replies : (s.fetched n).replies = s.replies := rfl
@[simp] theorem State.fetched_reports : (s.fetched n).reports = s.reports := rfl

end

section
variable (s : State) (m : Memory)
@[simp] theorem State.setMem_a : (s.setMem m).a = s.a := rfl
@[simp] theorem State.setMem_x : (s.setMem m).x = s.x := rfl
@[simp] theorem State.setMem_y : (s.setMem m).y = s.y := rfl
@[simp] theorem State.setMem_pc : (s.setMem m).pc = s.pc := rfl
@[simp] theorem State.setMem_sp : (s.setMem m).sp = s.sp := rfl
@[simp] theorem State.setMem_flagC : (s.setMem m).flagC = s.flagC := rfl
@[simp] theorem State.setMem_flagZ : (s.setMem m).flagZ = s.flagZ := rfl
@[simp] theorem State.setMem_flagI : (s.setMem m).flagI = s.flagI := rfl
@[simp] theorem State.setMem_flagD : (s.setMem m).flagD = s.flagD := rfl
@[simp] theorem State.setMem_flagB : (s.setMem m).flagB = s.flagB := rfl
@[simp] theorem State.setMem_flagV : (s.setMem m).flagV = s.flagV := rfl
@[simp] theorem State.setMem_flagN : (s.setMem m).flagN = s.flagN := rfl
@[simp] theorem State.setMem_run : (s.setMem m).run = s.run := rfl
@[simp] theorem State.setMem_cyc : (s.setMem m).cyc = s.cyc := rfl
@[simp] theorem State.setMem_fault : (s.setMem m).fault = s.fault := rfl
@[simp] theorem State.setMem_init : (s.setMem m).init = s.init := rfl
@[simp] theorem State.setMem_mem : (s.setMem m).mem = m := rfl
@[simp] theorem State.setMem_cfg : (s.setMem m).cfg = s.cfg := rfl
@[simp] theorem State.setMem_requests : (s.setMem m).requests = s.requests := rfl
@[simp] theorem State.setMem_replies : (s.setMem m).replies = s.replies := rfl
@[simp] theorem State.setMem_reports : (s.setMem m).reports = s.reports := rfl

end

section
variable (s : State) (r : Byte)
@[simp] theorem State.setZN_a : (s.setZN r).a = s.a := rfl
@[simp] theorem State.setZN_x : (s.setZN r).x = s.x := rfl
@[simp] theorem State.setZN_y : (s.setZN r).y = s.y := rfl
@[simp] theorem State.setZN_pc : (s.setZN r).pc = s.pc := rfl
@[simp] theorem State.setZN_sp : (s.setZN r).sp = s.sp := rfl
@[simp] theorem State.setZN_flagC : (s.setZN r).flagC = s.flagC := rfl
@[simp] theorem State.setZN_flagZ : (s.setZN r).flagZ = zeroOf r := rfl
@[simp] theorem State.setZN_flagI : (s.setZN r).flagI = s.flagI := rfl
@[simp] theorem State.setZN_flagD : (s.setZN r).flagD = s.flagD := rfl
@[simp] theorem State.setZN_flagB : (s.setZN r).flagB = s.flagB := rfl
@[simp] theorem State.setZN_flagV : (s.setZN r).flagV = s.flagV := rfl
@[simp] theorem State.setZN_flagN : (s.setZN r).flagN = negativeOf r := rfl
@[simp] theorem State.setZN_run : (s.setZN r).run = s.run := rfl
@[simp] theorem State.setZN_cyc : (s.setZN r).cyc = s.cyc := rfl
@[simp] theorem State.setZN_fault : (s.setZN r).fault = s.fault := rfl
@[simp] theorem State.setZN_init : (s.setZN r).init = s.init := rfl
@[simp] theorem State.setZN_mem : (s.setZN r).mem = s.mem := rfl
@[simp] theorem State.setZN_cfg : (s.setZN r).cfg = s.cfg := rfl
@[simp] theorem State.setZN_requests : (s.setZN r).requests = s.requests := rfl
@[simp] theorem State.setZN_replies : (s.setZN r).replies = s.replies := rfl
@[simp] theorem State.setZN_reports : (s.setZN r).reports = s.reports := rfl

end

section
variable (s : State) (v : Byte)
@[simp] theorem State.loadA_a : (s.loadA v).a = v := rfl
@[simp] theorem State.loadA_x : (s.loadA v).x = s.x := rfl
@[simp] theorem State.loadA_y : (s.loadA v).y = s.y := rfl
@[simp] theorem State.loadA_pc : (s.loadA v).pc = s.pc := rfl
@[simp] theorem State.loadA_sp : (s.loadA v).sp = s.sp := rfl
@[simp] theorem State.loadA_flagC : (s.loadA v).flagC = s.flagC := rfl
@[simp] theorem State.loadA_flagZ : (s.loadA v).flagZ = zeroOf v := rfl
@[simp] theorem State.loadA_flagI : (s.loadA v).flagI = s.flagI := rfl
@[simp] theorem State.loadA_flagD : (s.loadA v).flagD = s.flagD := rfl
@[simp] theorem State.loadA_flagB : (s.loadA v).flagB = s.flagB := rfl
@[simp] theorem State.loadA_flagV : (s.loadA v).flagV = s.flagV := rfl
@[simp] theorem State.loadA_flagN : (s.loadA v).flagN = negativeOf v := rfl
@[simp] theorem State.loadA_run : (s.loadA v).run = s.run := rfl
@[simp] theorem State.loadA_cyc : (s.loadA v).cyc = s.cyc := rfl
@[simp] theorem State.loadA_fault : (s.loadA v).fault = s.fault := rfl
@[simp] theorem State.loadA_init : (s.loadA v).init = s.init := rfl
@[simp] theorem State.loadA_mem : (s.loadA v).mem = s.mem := rfl
@[simp] theorem State.loadA_cfg : (s.loadA v).cfg = s.cfg := rfl
@[simp] theorem State.loadA_requests : (s.loadA v).requests = s.requests := rfl
@[simp] theorem State.loadA_replies : (s.loadA v).replies = s.replies := rfl
@[simp] theorem State.loadA_reports : (s.loadA v).reports = s.reports := rfl

end

section
variable (s : State) (w : Word)
@[simp] theorem State.enterCall_a : (s.enterCall w).a = s.a := rfl
@[simp] theorem State.enterCall_x : (s.enterCall w).x = s.x := rfl
@[simp] theorem State.enterCall_y : (s.enterCall w).y = s.y := rfl
@[simp] theorem State.enterCall_pc : (s.enterCall w).pc = w := rfl
@[simp] theorem State.enterCall_sp : (s.enterCall w).sp = s.sp + 2 := rfl
@[simp] theorem State.enterCall_flagC : (s.enterCall w).flagC = s.flagC := rfl
@[simp] theorem State.enterCall_flagZ : (s.enterCall w).flagZ = s.flagZ := rfl
@[simp] theorem State.enterCall_flagI : (s.enterCall w).flagI = s.flagI := rfl
@[simp] theorem State.enterCall_flagD : (s.enterCall w).flagD = s.flagD := rfl
@[simp] theorem State.enterCall_flagB : (s.enterCall w).flagB = s.flagB := rfl
@[simp] theorem State.enterCall_flagV : (s.enterCall w).flagV = s.flagV := rfl
@[simp] theorem State.enterCall_flagN : (s.enterCall w).flagN = s.flagN := rfl
@[simp] theorem State.enterCall_run : (s.enterCall w).run = s.run := rfl
@[simp] theorem State.enterCall_cyc : (s.enterCall w).cyc = s.cfg.narrow (s.cyc - (s.cfg.jsrExtraCycles : Int)) := rfl
@[simp] theorem State.enterCall_fault : (s.enterCall w).fault = s.fault := rfl
@[simp] theorem State.enterCall_init : (s.enterCall w).init = s.init := rfl
@[simp] theorem State.enterCall_mem : (s.enterCall w).mem = s.mem := rfl
@[simp] theorem State.enterCall_cfg : (s.enterCall w).cfg = s.cfg := rfl
@[simp] theorem State.enterCall_requests : (s.enterCall w).requests = s.requests := rfl
@[simp] theorem State.enterCall_replies : (s.enterCall w).replies = s.replies := rfl
@[simp] theorem State.enterCall_reports : (s.enterCall w).reports = s.reports := rfl

end

section
variable (s : State) (r : HostReply)
@[simp] theorem State.reply_a : (s.reply r).a = s.a := rfl
@[simp] theorem State.reply_x : (s.reply r).x = s.x := rfl
@[simp] theorem State.reply_y : (s.reply r).y = s.y := rfl
@[simp] theorem State.reply_pc : (s.reply r).pc = s.pc := rfl
@[simp] theorem State.reply_sp : (s.reply r).sp = s.sp := rfl
@[simp] theorem State.reply_flagC : (s.reply r).flagC = s.flagC := rfl
@[simp] theorem State.reply_flagZ : (s.reply r).flagZ = s.flagZ := rfl
@[simp] theorem State.reply_flagI : (s.reply r).flagI = s.flagI := rfl
@[simp] theorem State.reply_flagD : (s.reply r).flagD = s.flagD := rfl
@[simp] theorem State.reply_flagB : (s.reply r).flagB = s.flagB := rfl
@[simp] theorem State.reply_flagV : (s.reply r).flagV = s.flagV := rfl
@[simp] theorem State.reply_flagN : (s.reply r).flagN = s.flagN := rfl
@[simp] theorem State.reply_run : (s.reply r).run = s.run := rfl
@[simp] theorem State.reply_cyc : (s.reply r).cyc = s.cyc := rfl
@[simp] theorem State.reply_fault : (s.reply r).fault = s.fault := rfl
@[simp] theorem State.reply_init : (s.reply r).init = s.init := rfl
@[simp] theorem State.reply_mem : (s.reply r).mem = s.mem := rfl
@[simp] theorem State.reply_cfg : (s.reply r).cfg = s.cfg := rfl
@[simp] theorem State.reply_requests : (s.reply r).requests = s.requests := rfl
@[simp] theorem State.reply_replies : (s.reply r).replies = s.replies ++ [r] := rfl
@[simp] theorem State.reply_reports : (s.reply r).reports = s.reports := rfl

end

section
variable (s : State) (r : Report)
@[simp] theorem State.emit_a : (s.emit r).a = s.a := rfl
@[simp] theorem State.emit_x : (s.emit r).x = s.x := rfl
@[simp] theorem State.emit_y : (s.emit r).y = s.y := rfl
@[simp] theorem State.emit_pc : (s.emit r).pc = s.pc := rfl
@[simp] theorem State.emit_sp : (s.emit r).sp = s.sp := rfl
@[simp] theorem State.emit_flagC : (s.emit r).flagC = s.flagC := rfl
@[simp] theorem State.emit_flagZ : (s.emit r).flagZ = s.flagZ := rfl
@[simp] theorem State.emit_flagI : (s.emit r).flagI = s.flagI := rfl
@[simp] theorem State.emit_flagD : (s.emit r).flagD = s.flagD := rfl
@[simp] theorem State.emit_flagB : (s.emit r).flagB = s.flagB := rfl
@[simp] theorem State.emit_flagV : (s.emit r).flagV = s.flagV := rfl
@[simp] theorem State.emit_flagN : (s.emit r).flagN = s.flagN := rfl
@[simp] theorem State.emit_run : (s.emit r).run = s.run := rfl
@[simp] theorem State.emit_cyc : (s.emit r).cyc = s.cyc := rfl
@[simp] theorem State.emit_fault : (s.emit r).fault = s.fault := rfl
@[simp] theorem State.emit_init : (s.emit r).init = s.init := rfl
@[simp] theorem State.emit_mem : (s.emit r).mem = s.mem := rfl
@[simp] theorem State.emit_cfg : (s.emit r).cfg = s.cfg := rfl
@[simp] theorem State.emit_requests : (s.emit r).requests = s.requests := rfl
@[simp] theorem State.emit_replies : (s.emit r).replies = s.replies := rfl
@[simp] theorem State.emit_reports : (s.emit r).reports = s.reports ++ [r] := rfl

end

section
variable (s : State) (r : RunResult)
@[simp] theorem State.endRun_a : (s.endRun r).a = s.a := rfl
@[simp] theorem State.endRun_x : (s.endRun r).x = s.x := rfl
@[simp] theorem State.endRun_y : (s.endRun r).y = s.y := rfl
@[simp] theorem State.endRun_pc : (s.endRun r).pc = s.pc := rfl
@[simp] theorem State.endRun_sp : (s.endRun r).sp = s.sp := rfl
@[simp] theorem State.endRun_flagC : (s.endRun r).flagC = s.flagC := rfl
@[simp] theorem State.endRun_flagZ : (s.endRun r).flagZ = s.flagZ := rfl
@[simp] theorem State.endRun_flagI : (s.endRun r).flagI = s.flagI := rfl
@[simp] theorem State.endRun_flagD : (s.endRun r).flagD = s.flagD := rfl
@[simp] theorem State.endRun_flagB : (s.endRun r).flagB = s.flagB := rfl
@[simp] theorem State.endRun_flagV : (s.endRun r).flagV = s.flagV := rfl
@[simp] theorem State.endRun_flagN : (s.endRun r).flagN = s.flagN := rfl
@[simp] theorem State.endRun_run : (s.endRun r).run = .halted := rfl
@[simp] theorem State.endRun_cyc : (s.endRun r).cyc = s.cyc := rfl
@[simp] theorem State.endRun_fault : (s.endRun r).fault = s.fault := rfl
@[simp] theorem State.endRun_init : (s.endRun r).init = s.init := rfl
@[simp] theorem State.endRun_mem : (s.endRun r).mem = s.mem := rfl
@[simp] theorem State.endRun_cfg : (s.endRun r).cfg = s.cfg := rfl
@[simp] theorem State.endRun_requests : (s.endRun r).requests = s.requests := rfl
@[simp] theorem State.endRun_replies : (s.endRun r).replies = s.replies ++ [.ran r s.cyc] := rfl
@[simp] theorem State.endRun_reports : (s.endRun r).reports = s.reports := rfl

end

section
variable (s : State) (f : Fault)
@[simp] theorem State.takeFault_a : (s.takeFault f).a = s.a := rfl
@[simp] theorem State.takeFault_x : (s.takeFault f).x = s.x := rfl
@[simp] theorem State.takeFault_y : (s.takeFault f).y = s.y := rfl
@[simp] theorem State.takeFault_pc : (s.takeFault f).pc = s.pc := rfl
@[simp] theorem State.takeFault_sp : (s.takeFault f).sp = s.sp := rfl
@[simp] theorem State.takeFault_flagC : (s.takeFault f).flagC = s.flagC := rfl
@[simp] theorem State.takeFault_flagZ : (s.takeFault f).flagZ = s.flagZ := rfl
@[simp] theorem State.takeFault_flagI : (s.takeFault f).flagI = s.flagI := rfl
@[simp] theorem State.takeFault_flagD : (s.takeFault f).flagD = s.flagD := rfl
@[simp] theorem State.takeFault_flagB : (s.takeFault f).flagB = s.flagB := rfl
@[simp] theorem State.takeFault_flagV : (s.takeFault f).flagV = s.flagV := rfl
@[simp] theorem State.takeFault_flagN : (s.takeFault f).flagN = s.flagN := rfl
@[simp] theorem State.takeFault_run : (s.takeFault f).run = .halted := rfl
@[simp] theorem State.takeFault_cyc : (s.takeFault f).cyc = s.cyc := rfl
@[simp] theorem State.takeFault_fault : (s.takeFault f).fault = some f := rfl
@[simp] theorem State.takeFault_init : (s.takeFault f).init = s.init := rfl
@[simp] theorem State.takeFault_mem : (s.takeFault f).mem = s.mem := rfl
@[simp] theorem State.takeFault_cfg : (s.takeFault f).cfg = s.cfg := rfl
@[simp] theorem State.takeFault_requests : (s.takeFault f).requests = s.requests := rfl
@[simp] theorem State.takeFault_replies : (s.takeFault f).replies = s.replies ++ [.ran (.error f) s.cyc] := rfl
@[simp] theorem State.takeFault_reports : (s.takeFault f).reports = s.reports := rfl

end

section
variable (s : State)
@[simp] theorem State.performReset_a : s.performReset.a = 0 := rfl
@[simp] theorem State.performReset_x : s.performReset.x = 0 := rfl
@[simp] theorem State.performReset_y : s.performReset.y = 0 := rfl
@[simp] theorem State.performReset_pc : s.performReset.pc = s.cfg.resetPc := rfl
@[simp] theorem State.performReset_sp : s.performReset.sp = s.cfg.resetSp := rfl
@[simp] theorem State.performReset_flagC : s.performReset.flagC = false := rfl
@[simp] theorem State.performReset_flagZ : s.performReset.flagZ = false := rfl
@[simp] theorem State.performReset_flagI : s.performReset.flagI = false := rfl
@[simp] theorem State.performReset_flagD : s.performReset.flagD = false := rfl
@[simp] theorem State.performReset_flagB : s.performReset.flagB = false := rfl
@[simp] theorem State.performReset_flagV : s.performReset.flagV = false := rfl
@[simp] theorem State.performReset_flagN : s.performReset.flagN = false := rfl
@[simp] theorem State.performReset_run : s.performReset.run = .halted := rfl
@[simp] theorem State.performReset_cyc : s.performReset.cyc = s.cyc := rfl
@[simp] theorem State.performReset_fault : s.performReset.fault = none := rfl
@[simp] theorem State.performReset_init : s.performReset.init = true := rfl
@[simp] theorem State.performReset_mem : s.performReset.mem = [] := rfl
@[simp] theorem State.performReset_cfg : s.performReset.cfg = s.cfg := rfl
@[simp] theorem State.performReset_requests : s.performReset.requests = s.requests := rfl
@[simp] theorem State.performReset_replies : s.performReset.replies = s.replies := rfl
@[simp] theorem State.performReset_reports : s.performReset.reports = s.reports := rfl

end

section
variable (s : State)
@[simp] theorem State.inRun_a : s.inRun.a = s.a := rfl
@[simp] theorem State.inRun_x : s.inRun.x = s.x := rfl
@[simp] theorem State.inRun_y : s.inRun.y = s.y := rfl
@[simp] theorem State.inRun_pc : s.inRun.pc = s.pc := rfl
@[simp] theorem State.inRun_sp : s.inRun.sp = s.sp := rfl
@[simp] theorem State.inRun_flagC : s.inRun.flagC = s.flagC := rfl
@[simp] theorem State.inRun_flagZ : s.inRun.flagZ = s.flagZ := rfl
@[simp] theorem State.inRun_flagI : s.inRun.flagI = s.flagI := rfl
@[simp] theorem State.inRun_flagD : s.inRun.flagD = s.flagD := rfl
@[simp] theorem State.inRun_flagB : s.inRun.flagB = s.flagB := rfl
@[simp] theorem State.inRun_flagV : s.inRun.flagV = s.flagV := rfl
@[simp] theorem State.inRun_flagN : s.inRun.flagN = s.flagN := rfl
@[simp] theorem State.inRun_run : s.inRun.run = .running := rfl
@[simp] theorem State.inRun_cyc : s.inRun.cyc = if 0 < s.cyc then s.cyc else 1 := rfl
@[simp] theorem State.inRun_fault : s.inRun.fault = none := rfl
@[simp] theorem State.inRun_init : s.inRun.init = true := rfl
@[simp] theorem State.inRun_mem : s.inRun.mem = s.mem := rfl
@[simp] theorem State.inRun_cfg : s.inRun.cfg = s.cfg := rfl
@[simp] theorem State.inRun_requests : s.inRun.requests = s.requests := rfl
@[simp] theorem State.inRun_replies : s.inRun.replies = s.replies := rfl
@[simp] theorem State.inRun_reports : s.inRun.reports = s.reports := rfl

end

end Sys2Proof.Machine
end

