-- ==== Sys2Proof/Laws/Ops.lean ====
section
/-! SUPPORT. What each shared operation comes to, said once. -/

namespace Sys2Proof.Machine

@[simp] theorem Attempt.andThen_done {α β : Type} (v : α) (s : State) (k : α → State → Attempt β) :
    (Attempt.done v s).andThen k = k v s := rfl

@[simp] theorem Attempt.andThen_raised {α β : Type} (f : Fault) (s : State) (k : α → State → Attempt β) :
    (Attempt.raised f s).andThen k = .raised f s := rfl

@[simp] theorem finish_done (u : Unit) (s : State) : finish (.done u s) = .next s := rfl

@[simp] theorem finish_raised (f : Fault) (s : State) : finish (.raised f s) = .next (s.takeFault f) := rfl

/-- A 16-bit address is always inside the memory. -/
theorem word_lt_memSize (w : Word) : w.toNat < memSize := w.isLt

theorem memRead_done {a : Nat} (s : State) (h : a < memSize) : memRead a s = .done (s.mem.read a) s := by
  simp [memRead, h]

theorem memRead_raised {a : Nat} (s : State) (h : memSize ≤ a) : memRead a s = .raised (.outOfRange a) s := by
  simp [memRead, Nat.not_lt.mpr h]

theorem memWrite_done {a : Nat} (v : Byte) (s : State) (h : a < memSize) :
    memWrite a v s = .done () (s.setMem (s.mem.write a v)) := by
  simp [memWrite, h]

theorem memWrite_raised {a : Nat} (v : Byte) (s : State) (h : memSize ≤ a) :
    memWrite a v s = .raised (.outOfRange a) s := by
  simp [memWrite, Nat.not_lt.mpr h]

/-- A fetch never raises: PC is always a valid address (R83). -/
theorem fetchByte_done (s : State) : fetchByte s = .done (s.byteAt s.pc) (s.fetched 1) := by
  simp [fetchByte, memRead_done s (word_lt_memSize s.pc), State.byteAt, State.fetched]

theorem byteAt_fetched (s : State) (n : Nat) (a : Word) : (s.fetched n).byteAt a = s.byteAt a := rfl

theorem fetched_fetched (s : State) (m n : Nat) : (s.fetched m).fetched n = s.fetched (m + n) := by
  simp only [State.fetched, State.advancePc, State.deduct, narrow_sub_sub, BitVec.ofNat_add, BitVec.add_assoc]

theorem deduct_deduct (s : State) (m n : Nat) : (s.deduct m).deduct n = s.deduct (m + n) := by
  simp only [State.deduct, narrow_sub_sub]

theorem fetchWord_done (s : State) :
    fetchWord s = .done (joinBytes (s.byteAt s.pc) (s.byteAt (s.pc + 1))) (s.fetched 2) := by
  simp [fetchWord, fetchByte_done, byteAt_fetched, fetched_fetched]

/-- A zero-page read never raises (R85, R100). -/
theorem readByte_done (a : Word) (s : State) : readByte a.toNat s = .done (s.mem.read a.toNat) (s.deduct 1) := by
  simp [readByte, memRead_done s (word_lt_memSize a)]

/-- The memory JSR's push and every other word write leave when both bytes land. -/
theorem writeWord_done {a : Nat} (w : Word) (s : State) (h : a + 1 < memSize) :
    writeWord a w s = .done () ((s.setMem ((s.mem.write a (lo8 w)).write (a + 1) (hi8 w))).deduct 2) := by
  simp only [writeWord, memWrite_done _ s (by omega : a < memSize), Attempt.andThen_done]
  rw [memWrite_done _ _ h]
  rfl

/-- A word write at the last address writes the low byte and raises (R43). -/
theorem writeWord_top (w : Word) (s : State) :
    writeWord 65535 w s = .raised (.outOfRange 65536) (s.setMem (s.mem.write 65535 (lo8 w))) := rfl

/-- A word write beyond the memory raises at its first byte (R43). -/
theorem writeWord_raised {a : Nat} (w : Word) (s : State) (h : memSize ≤ a) :
    writeWord a w s = .raised (.outOfRange a) s := by
  simp [writeWord, memWrite_raised _ s h]

/-- The resolver never raises (R100): its value and the state after it, mode by mode. -/
theorem resolve_done (mode : AddrMode) (b : Byte) (s : State) :
    ∃ v t, resolve mode b s = .done v t ∧
      (mode = .immediate → v = b ∧ t = s) ∧
      (mode = .zeroPage → v = s.mem.read b.toNat ∧ t = s.deduct 1) ∧
      (mode = .zeroPageX → v = s.mem.read ((b.toNat + s.x.toNat) % 256) ∧ t = s.deduct 2) := by
  cases mode with
  | immediate => exact ⟨b, s, rfl, by simp⟩
  | zeroPage => exact ⟨_, s.deduct 1, readByte_done _ s, by simp [toNat_effZeroPage]⟩
  | zeroPageX =>
    refine ⟨s.mem.read (effZeroPageX b s.x).toNat, s.deduct 2, ?_, by simp [toNat_effZeroPageX]⟩
    rw [resolve, readByte_done, deduct_deduct, State.deduct_mem]

/-! ## The canonical form of memory under the operations that write it -/

/-- A byte write keeps the canonical form, whether it lands or raises. -/
theorem wf_memWrite {a : Nat} {v : Byte} {s : State} (h : s.mem.wf = true) :
    (∀ u t, memWrite a v s = .done u t → t.mem.wf = true) ∧
    (∀ f t, memWrite a v s = .raised f t → t.mem.wf = true) := by
  by_cases ha : a < memSize
  · rw [memWrite_done v s ha]
    refine ⟨fun u t e => ?_, fun f t e => (by cases e)⟩
    cases e
    exact Memory.wf_write v h ha
  · rw [memWrite_raised v s (Nat.not_lt.mp ha)]
    refine ⟨fun u t e => (by cases e), fun f t e => ?_⟩
    cases e
    exact h

/-- A word write keeps the canonical form, whether it lands or raises after its first byte. -/
theorem wf_writeWord {a : Nat} {w : Word} {s : State} (h : s.mem.wf = true) :
    (∀ u t, writeWord a w s = .done u t → t.mem.wf = true) ∧
    (∀ f t, writeWord a w s = .raised f t → t.mem.wf = true) := by
  obtain hlt | heq | hge : a + 1 < memSize ∨ a = 65535 ∨ memSize ≤ a := by
    unfold memSize
    omega
  · rw [writeWord_done w s hlt]
    refine ⟨fun u t e => ?_, fun f t e => (by cases e)⟩
    cases e
    exact Memory.wf_write _ (Memory.wf_write _ h (by omega)) hlt
  · subst a
    rw [writeWord_top w s]
    refine ⟨fun u t e => (by cases e), fun f t e => ?_⟩
    cases e
    exact Memory.wf_write _ h (by decide)
  · rw [writeWord_raised w s hge]
    refine ⟨fun u t e => (by cases e), fun f t e => ?_⟩
    cases e
    exact h

end Sys2Proof.Machine
end

