-- ==== Sys2Proof/Laws/Fetch.lean ====
section
/-! SUPPORT. Fetching by the engine primitives agrees with decoding the bytes at PC, and where placed bytes are read. -/

namespace Sys2Proof.Machine

/-- The bytes at PC always decode. -/
theorem window_decodes (s : State) : ∃ i rest, decode s.cfg s.window = .ok (i, rest) := by
  simp only [State.window, decode]
  cases decodeOpcode s.cfg (s.byteAt s.pc) <;> exact ⟨_, _, rfl⟩

/-- The fetch gives the instruction the bytes at PC decode to, with PC past its bytes and the budget less their number. -/
theorem fetchInstr_decode {s : State} {i : Instr} {rest : List Byte} (h : decode s.cfg s.window = .ok (i, rest)) :
    fetchInstr s = .done i (s.fetched i.length) := by
  have hcfg : (s.fetched 1).cfg = s.cfg := rfl
  have hpc : (s.fetched 1).pc = s.pc + 1 := rfl
  simp only [State.window, decode] at h
  simp only [fetchInstr, fetchByte_done, fetchWord_done, Attempt.andThen_done, hcfg, hpc, byteAt_fetched, fetched_fetched]
  cases hd : decodeOpcode s.cfg (s.byteAt s.pc) <;> rw [hd] at h <;> cases h <;>
    simp [Instr.length, Instr.format, Format.length, BitVec.add_assoc]

/-- The fetch never raises (R83, R84). -/
theorem fetchInstr_done (s : State) :
    ∃ i rest, decode s.cfg s.window = .ok (i, rest) ∧ fetchInstr s = .done i (s.fetched i.length) := by
  obtain ⟨i, rest, h⟩ := window_decodes s
  exact ⟨i, rest, h, fetchInstr_decode h⟩

/-- Three placed bytes are what the window at their address reads. -/
theorem window_place (s : State) (b0 b1 b2 : Byte) :
    (s.setMem (s.mem.place s.pc [b0, b1, b2])).window = [b0, b1, b2] := by
  have h01 : s.pc.toNat ≠ (s.pc + 1).toNat := by bv_omega
  have h02 : s.pc.toNat ≠ (s.pc + 2).toNat := by bv_omega
  have h12 : (s.pc + 1).toNat ≠ (s.pc + 2).toNat := by bv_omega
  have e2 : s.pc + 1 + 1 = s.pc + 2 := by bv_omega
  simp only [State.window, State.byteAt, State.setMem_mem, State.setMem_pc, Memory.place, e2, Memory.read_write,
    if_neg h01, if_neg h02, if_neg h12, if_true]

end Sys2Proof.Machine
end

