-- ==== Sys2Proof/Laws/Host.lean ====
section
/-! SUPPORT. What the host's requests come to, and what none of them changes. -/

namespace Sys2Proof.Machine

/-- A load of any mode never raises: it loads the resolved byte after the mode's own cost (R88, R100). -/
theorem execLoad_next (mode : AddrMode) (b : Byte) (s : State) :
    ∃ v t, execLoad mode b s = .next (t.loadA v) ∧
      (mode = .immediate → v = b ∧ t = s) ∧
      (mode = .zeroPage → v = s.mem.read b.toNat ∧ t = s.deduct 1) ∧
      (mode = .zeroPageX → v = s.mem.read ((b.toNat + s.x.toNat) % 256) ∧ t = s.deduct 2) := by
  obtain ⟨v, t, h, himm, hzp, hzpx⟩ := resolve_done mode b s
  exact ⟨v, t, by simp [execLoad, h], himm, hzp, hzpx⟩

theorem hostLoad_done {a : Nat} (s : State) (v : Byte) (h : a < memSize) :
    s.hostLoad a v = (s.setMem (s.mem.write a v)).reply .loaded := by
  simp [State.hostLoad, memWrite_done v s h]

theorem hostLoad_raised {a : Nat} (s : State) (v : Byte) (h : memSize ≤ a) :
    s.hostLoad a v = s.reply (.outOfRange a) := by
  simp [State.hostLoad, memWrite_raised v s h]

theorem hostRead_done {a : Nat} (s : State) (h : a < memSize) : s.hostRead a = s.reply (.byte (s.mem.read a)) := by
  simp [State.hostRead, memRead_done s h]

theorem hostRead_raised {a : Nat} (s : State) (h : memSize ≤ a) : s.hostRead a = s.reply (.outOfRange a) := by
  simp [State.hostRead, memRead_raised s h]

theorem startRun_faulted {s : State} {f : Fault} (budget : Int) (h : s.fault = some f) :
    s.startRun budget = (s.loadBudget budget).reply (.ran (.error f) (s.cfg.narrow budget)) := by
  simp [State.startRun, h]

theorem startRun_ends {s : State} {budget : Int} (h : s.fault = none) (hb : s.cfg.narrow budget ≤ 0) :
    s.startRun budget = (s.loadBudget budget).endRun .halted := by
  simp [State.startRun, h, hb]

theorem startRun_starts {s : State} {budget : Int} (h : s.fault = none) (hb : 0 < s.cfg.narrow budget) :
    s.startRun budget = { s.loadBudget budget with run := .running } := by
  simp [State.startRun, h, not_le.mpr hb]

/-- A run request changes only CYC, RUN and the replies (R80, R81). -/
theorem startRun_frame (s : State) (budget : Int) :
    s.startRun budget =
      { s.loadBudget budget with run := (s.startRun budget).run, replies := (s.startRun budget).replies } := by
  obtain hf | ⟨f, hf⟩ := Option.eq_none_or_eq_some s.fault
  · by_cases hb : s.cfg.narrow budget ≤ 0
    · rw [startRun_ends hf hb]
      rfl
    · rw [startRun_starts hf (not_le.mp hb)]
  · rw [startRun_faulted budget hf]
    rfl

/-- What no request changes: the parameters, the requests after it and the reports. -/
theorem serveInit_frame (s : State) (r : HostRequest) :
    (s.serveInit r).cfg = s.cfg ∧ (s.serveInit r).requests = s.requests ∧ (s.serveInit r).reports = s.reports := by
  cases r with
  | reset => exact ⟨rfl, rfl, rfl⟩
  | loadByte a v =>
    by_cases h : a < memSize
    · simp [State.serveInit, hostLoad_done s v h]
    · simp [State.serveInit, hostLoad_raised s v (not_lt.mp h)]
  | readByte a =>
    by_cases h : a < memSize
    · simp [State.serveInit, hostRead_done s h]
    · simp [State.serveInit, hostRead_raised s (not_lt.mp h)]
  | writeByteReg r v => cases r <;> exact ⟨rfl, rfl, rfl⟩
  | writeWordReg r v => cases r <;> exact ⟨rfl, rfl, rfl⟩
  | writeFlag f v => cases f <;> exact ⟨rfl, rfl, rfl⟩
  | readByteReg r => exact ⟨rfl, rfl, rfl⟩
  | readWordReg r => exact ⟨rfl, rfl, rfl⟩
  | readFlag f => exact ⟨rfl, rfl, rfl⟩
  | run budget =>
    rw [State.serveInit, startRun_frame]
    exact ⟨rfl, rfl, rfl⟩

/-- Every request keeps the canonical form of memory. -/
theorem serveInit_wf {s : State} (r : HostRequest) (h : s.mem.wf = true) : (s.serveInit r).mem.wf = true := by
  cases r with
  | reset => exact Memory.wf_nil
  | loadByte a v =>
    by_cases ha : a < memSize
    · simpa [State.serveInit, hostLoad_done s v ha] using Memory.wf_write v h ha
    · simpa [State.serveInit, hostLoad_raised s v (not_lt.mp ha)] using h
  | readByte a =>
    by_cases ha : a < memSize
    · simpa [State.serveInit, hostRead_done s ha] using h
    · simpa [State.serveInit, hostRead_raised s (not_lt.mp ha)] using h
  | writeByteReg r v => cases r <;> exact h
  | writeWordReg r v => cases r <;> exact h
  | writeFlag f v => cases f <;> exact h
  | readByteReg r => exact h
  | readWordReg r => exact h
  | readFlag f => exact h
  | run budget =>
    rw [State.serveInit, startRun_frame]
    exact h

end Sys2Proof.Machine
end

