-- ==== Sys2Proof/Laws/PerInstr.lean ====
section
/-! SUPPORT. Statements made instruction by instruction: `FormatLength`, that an instruction's encoding has its format's
length (spec/30_encoding.md R61). -/

namespace Sys2Proof.Laws.FormatLength

/-- The encoding of an instruction has as many bytes as its format says, whatever the parameters. -/
def Statement (i : Instr) : Prop := ∀ cfg : Config, (encode cfg i).length = i.length

theorem jsr (abs : Word) : Statement (.jsr abs) := fun _ => rfl

theorem ldaZp (zp : Byte) : Statement (.ldaZp zp) := fun _ => rfl

theorem ldaImm (imm : Byte) : Statement (.ldaImm imm) := fun _ => rfl

theorem ldaZpX (zp : Byte) : Statement (.ldaZpX zp) := fun _ => rfl

theorem unhandled (op : Byte) : Statement (.unhandled op) := fun _ => rfl

end Sys2Proof.Laws.FormatLength
end

