-- ==== Sys2Proof/Laws/Step.lean ====
section
/-! SUPPORT. What a step can be, said once: a run's end, a fetched instruction executed, or the host's turn. -/

namespace Sys2Proof.Machine

theorem step_running {s : State} (hi : s.init = true) (hr : s.run = .running) : step s = iteration s := by
  simp [step, turn, hi, hr]

theorem step_host {s : State} (h : ¬ (s.init = true ∧ s.run = .running)) : step s = hostTurn s := by
  simp only [step, turn, if_neg h]

theorem iteration_ends {s : State} (h : s.cyc ≤ 0) : iteration s = .next (s.endRun .halted) := by
  simp [iteration, h]

theorem iteration_executes {s : State} (h : 0 < s.cyc) :
    ∃ i rest, decode s.cfg s.window = .ok (i, rest) ∧ iteration s = exec i (s.fetched i.length) := by
  obtain ⟨i, rest, hd, hf⟩ := fetchInstr_done s
  exact ⟨i, rest, hd, by simp [iteration, not_le.mpr h, hf]⟩

theorem hostTurn_idle {s : State} (h : s.requests = []) : hostTurn s = .next s := by
  simp [hostTurn, h]

theorem hostTurn_serves {s : State} {r : HostRequest} {rest : List HostRequest} (h : s.requests = r :: rest)
    (hr : r = .reset ∨ s.init = true) : hostTurn s = .next ({ s with requests := rest }.serveInit r) := by
  simp [hostTurn, h, serve, hr]

theorem hostTurn_refuses {s : State} {r : HostRequest} {rest : List HostRequest} (h : s.requests = r :: rest)
    (hr : r ≠ .reset) (hi : s.init = false) : hostTurn s = .refused .beforeFirstReset := by
  simp [hostTurn, h, serve, hr, hi]

/-- Every case of a step that answers a next state. -/
theorem step_next_cases {s t : State} (h : step s = .next t) :
    (s.init = true ∧ s.run = .running ∧ s.cyc ≤ 0 ∧ t = s.endRun .halted) ∨
    (s.executing ∧ ∃ i rest, decode s.cfg s.window = .ok (i, rest) ∧ exec i (s.fetched i.length) = .next t) ∨
    (¬ (s.init = true ∧ s.run = .running) ∧ s.requests = [] ∧ t = s) ∨
    (¬ (s.init = true ∧ s.run = .running) ∧ ∃ r rest, s.requests = r :: rest ∧ (r = .reset ∨ s.init = true) ∧
      t = { s with requests := rest }.serveInit r) := by
  by_cases hrun : s.init = true ∧ s.run = .running
  · rw [step_running hrun.1 hrun.2] at h
    by_cases hc : s.cyc ≤ 0
    · rw [iteration_ends hc] at h
      cases h
      exact .inl ⟨hrun.1, hrun.2, hc, rfl⟩
    · obtain ⟨i, rest, hd, he⟩ := iteration_executes (not_le.mp hc)
      exact .inr (.inl ⟨⟨hrun.1, hrun.2, not_le.mp hc⟩, i, rest, hd, he ▸ h⟩)
  · rw [step_host hrun] at h
    refine .inr (.inr ?_)
    cases hq : s.requests with
    | nil =>
      rw [hostTurn_idle hq] at h
      cases h
      exact .inl ⟨hrun, rfl, rfl⟩
    | cons r rest =>
      by_cases hr : r = .reset ∨ s.init = true
      · rw [hostTurn_serves hq hr] at h
        cases h
        exact .inr ⟨hrun, r, rest, rfl, hr, rfl⟩
      · rw [not_or, Bool.not_eq_true] at hr
        rw [hostTurn_refuses hq hr.1 hr.2] at h
        cases h

end Sys2Proof.Machine
end

