-- ==== Sys2Proof/Tests/Slice0.lean ====
section
/-! SUPPORT. Tests of the model. Every expected result is the spec's own: its encodings (spec/30_encoding.md), its vectors
(spec/95_test_vectors.md, named by their ids) and its rules' corner cases. Section 5 shows for every obligation with hypotheses
a state and operands that meet them all. -/

namespace Sys2Proof.Tests

open Sys2Proof Sys2Proof.Machine

/-! ## 1. Well-formedness: an ill-formed term for each check -/

theorem test_wf_refuses_each_bound_opcode :
    (Instr.unhandled 0xA9).wf defaultConfig = false ∧ (Instr.unhandled 0x20).wf defaultConfig = false ∧
    (Instr.unhandled 0xA5).wf defaultConfig = false ∧ (Instr.unhandled 0xB5).wf defaultConfig = false := by decide

theorem test_wf_admits_unbound_opcode_and_operands :
    (Instr.unhandled 0x60).wf defaultConfig = true ∧ (Instr.ldaZpX 0xFF).wf defaultConfig = true ∧
    (Instr.jsr 0xFFFF).wf defaultConfig = true := by decide

theorem test_config_wf_refuses_each_clash :
    { defaultConfig with opcLdaZp := 0xA9 }.wf = false ∧ { defaultConfig with opcLdaZpX := 0xA9 }.wf = false ∧
    { defaultConfig with opcLdaZp := 0xB5 }.wf = false ∧ { defaultConfig with opcLdaZp := 0x20 }.wf = false ∧
    { defaultConfig with opcLdaZpX := 0x20 }.wf = false ∧ defaultConfig.wf = true := by decide

/-- With the default JSR cost an instruction may overshoot by 5, which a signed counter of 3 bits cannot hold and one of 4 can. -/
theorem test_budgetWide_refuses_narrow_counters :
    { defaultConfig with budget := .signed 0 }.budgetWide = false ∧ { defaultConfig with budget := .signed 3 }.budgetWide = false ∧
    { defaultConfig with budget := .signed 4 }.budgetWide = true ∧ defaultConfig.budgetWide = true := by decide

/-! ## 2. Decoding: words written out from the spec's encodings (R61, R63, R64) -/

/-- 0x20 = 0010 0000, then the low byte 1100 1101 and the high byte 1010 1011 of the target. -/
theorem test_decode_jsr : decode defaultConfig [0b00100000, 0b11001101, 0b10101011] = .ok (.jsr 0xABCD, []) := by decide

/-- 0xA5 = 1010 0101, then zp. -/
theorem test_decode_ldaZp : decode defaultConfig [0b10100101, 0b01000010] = .ok (.ldaZp 0x42, []) := by decide

/-- 0xA9 = 1010 1001, then imm. -/
theorem test_decode_ldaImm : decode defaultConfig [0b10101001, 0b10000100] = .ok (.ldaImm 0x84, []) := by decide

/-- 0xB5 = 1011 0101, then zp. -/
theorem test_decode_ldaZpX : decode defaultConfig [0b10110101, 0b10000000] = .ok (.ldaZpX 0x80, []) := by decide

/-- An unhandled byte is one byte long: the byte after it is the next opcode (R64). -/
theorem test_decode_unhandled : decode defaultConfig [0b11101010, 0b01000010] = .ok (.unhandled 0xEA, [0x42]) := by decide

/-- Vector U5: the decoder's boundaries next to the handled bytes. -/
theorem test_decode_neighbours :
    ([0x1F, 0x21, 0xA4, 0xA6, 0xA8, 0xAA, 0xB4, 0xB6] : List Byte).map (decodeOpcode defaultConfig)
      = List.replicate 8 .unhandled := by decide

set_option maxRecDepth 4000 in
/-- R64: 252 byte values in all are unhandled. -/
theorem test_unhandled_count :
    ((List.range 256).filter fun n => decodeOpcode defaultConfig (BitVec.ofNat 8 n) = .unhandled).length = 252 := by
  decide

theorem test_decode_rejects_by_name :
    decode defaultConfig [] = .error .noOpcode ∧ decode defaultConfig [0xA9] = .error .missingOperand ∧
    decode defaultConfig [0x20, 0x42] = .error .missingOperand := by decide

/-- Words as spec/opcode_table.json numbers their bits: the first byte is bits 7..0. -/
theorem test_table_words :
    decodeTableWord 24 0x123420 = some (.jsr 0x1234) ∧ decodeTableWord 16 0x42A5 = some (.ldaZp 0x42) ∧
    decodeTableWord 16 0x84A9 = some (.ldaImm 0x84) ∧ decodeTableWord 16 0x80B5 = some (.ldaZpX 0x80) ∧
    decodeTableWord 8 0x00 = some (.unhandled 0x00) := by decide

/-- R67: the four syntaxes and the spec's `.byte` notation. -/
theorem test_asm_text :
    (Instr.ldaZp 0xC1).asm = "LDA $C1".toList ∧ (Instr.ldaZpX 0x80).asm = "LDA $80,X".toList ∧
    (Instr.unhandled 0xEA).asm = ".byte $EA".toList := by decide

/-! ## 3. Primitives and the loop -/

/-- The state an outcome goes on with. -/
def nextOf (o : Host.Outcome State Fault Refusal) : Option State :=
  match o with
  | .next s => some s
  | .fault _ => none
  | .refused _ => none

/-- A run in progress at `pc` with budget `cyc` and the listed memory bytes. -/
def runAt (pc : Word) (cyc : Int) (m : Memory) : State := { State.reset with pc := pc, cyc := cyc, run := .running, mem := m }

/-- A machine after reset with the host's requests to come. -/
def asked (q : List HostRequest) : State := { State.reset with requests := q }

/-- `s` in a machine whose budget counter is signed, of `width` bits. -/
def withSigned (width : Nat) (s : State) : State := { s with cfg := { s.cfg with budget := .signed width } }

/-- D10, column "errs if wrong": a counter with a width wraps for budgets beyond its range. Two's complement in 8 bits, by hand. -/
theorem test_signed_counter_wraps :
    { defaultConfig with budget := .signed 8 }.narrow 127 = 127 ∧ { defaultConfig with budget := .signed 8 }.narrow 128 = -128 ∧
    { defaultConfig with budget := .signed 8 }.narrow (-129) = 127 ∧ defaultConfig.narrow (2 ^ 64) = 2 ^ 64 := by decide

/-- Vector F4: a word fetch across 0xFFFF. -/
theorem test_fetchWord_wraps :
    fetchWord (runAt 0xFFFF 5 [(0, 0xAB), (65535, 0xCD)]) = .done 0xABCD (runAt 0x0001 3 [(0, 0xAB), (65535, 0xCD)]) := by
  decide

/-- Vector M5: a word write at 0xFFFF writes its low byte and raises. -/
theorem test_writeWord_top :
    writeWord 0xFFFF 0x1234 (runAt 0 10 []) = .raised (.outOfRange 0x10000) (runAt 0 10 [(65535, 0x34)]) := by decide

/-- Writing the unlisted value removes the entry. -/
theorem test_write_zero_removes_entry : Memory.write [(3, 7), (5, 9)] 3 0 = [(5, 9)] := by decide

/-- Vector B2: a run with a negative budget executes nothing. -/
theorem test_negative_budget_runs_nothing :
    (nextOf (step (asked [.run (-3)]))).map (fun t => (t.pc, t.cyc, t.run, t.replies))
      = some (0xFFFC, -3, .halted, [.ran .halted (-3)]) := by decide

/-- Vector R2: a run before the first reset is refused, so there is no next state. -/
theorem test_run_before_reset_refused : nextOf (step { asked [.run 5] with init := false }) = none := by decide

/-- Vector M3: the host's load beyond memory is answered OutOfRange and sets no FAULT. -/
theorem test_host_load_out_of_range :
    (nextOf (step (asked [.loadByte 0x10000 0x77]))).map (fun t => (t.replies, t.fault, t.mem))
      = some ([.outOfRange 0x10000], none, []) := by decide

/-- From reset with nothing placed a step is idle (R144). -/
theorem test_reset_is_idle : nextOf (step State.reset) = some State.reset := by decide

/-- Each row of the opcode table runs as the first instruction after reset. -/
theorem test_table_words_run_first :
    (nextOf (step (State.reset.withFetchWord 24 0x123420))).map (fun t => (t.pc, t.sp)) = some (0x1234, 0x0102) ∧
    (nextOf (step (State.reset.withFetchWord 8 0xEA))).map (fun t => t.reports) = some [{ op := 0xEA, addr := 0xFFFC }] := by
  decide

/-! ## 4. One step of each instruction -/

/-- Vectors I2 and I7: A, Z, N written, C, I, D, B, V kept. -/
theorem test_ldaImm_flags :
    (nextOf (step { runAt 0x0200 2 [(0x200, 0xA9), (0x201, 0x84)] with
      flagC := true, flagI := true, flagD := true, flagB := true, flagV := true, flagZ := true })).map
      (fun t => ((t.a, t.flagZ, t.flagN, t.pc, t.cyc), [t.flagC, t.flagI, t.flagD, t.flagB, t.flagV]))
      = some ((0x84, false, true, 0x0202, 0), [true, true, true, true, true]) := by decide

/-- Vector I9: the operand fetch wraps from 0xFFFF to 0x0000. -/
theorem test_ldaImm_wraps :
    (nextOf (step (runAt 0xFFFF 2 [(0, 0x42), (65535, 0xA9)]))).map (fun t => (t.a, t.flagZ, t.flagN, t.pc))
      = some (0x42, false, false, 0x0001) := by decide

/-- Vector Z3: zp = 0xFF reads 0x00FF, not 0x0100. -/
theorem test_ldaZp_stays_in_page :
    (nextOf (step (runAt 0x0200 3 [(0xFF, 0x11), (0x100, 0x22), (0x200, 0xA5), (0x201, 0xFF)]))).map
      (fun t => (t.a, t.cyc)) = some (0x11, 0) := by decide

/-- Vector Z5: X is not added. -/
theorem test_ldaZp_ignores_x :
    (nextOf (step { runAt 0x0200 3 [(0x20, 0x33), (0x25, 0x44), (0x200, 0xA5), (0x201, 0x20)] with x := 0x05 })).map
      (fun t => t.a) = some 0x33 := by decide

/-- Vector X1: the index wraps within the zero page. -/
theorem test_ldaZpX_wraps_in_page :
    (nextOf (step { runAt 0x0200 4 [(0x7F, 0x37), (0x17F, 0x99), (0x200, 0xB5), (0x201, 0x80)] with x := 0xFF })).map
      (fun t => (t.a, t.flagZ, t.flagN, t.x)) = some (0x37, false, false, 0xFF) := by decide

/-- Vector X6: the budget overshoots by one. -/
theorem test_ldaZpX_overshoots :
    (nextOf (step { runAt 0x0200 3 [(0x7F, 0x37), (0x200, 0xB5), (0x201, 0x80)] with x := 0xFF })).map
      (fun t => (t.cyc, t.pc)) = some (-1, 0x0202) := by decide

/-- Vector J1. -/
theorem test_jsr_pushes_last_byte :
    (nextOf (step (runAt 0xFFFC 6 [(65532, 0x20), (65533, 0x42), (65534, 0x42)]))).map
      (fun t => (t.mem.read 0x100, t.mem.read 0x101, t.sp, t.pc, t.cyc)) = some (0xFE, 0xFF, 0x0102, 0x4242, 0) := by decide

/-- Vector J4: the fault at SP = 0xFFFF. -/
theorem test_jsr_faults_at_top :
    (nextOf (step { runAt 0x0200 10 [(0x200, 0x20), (0x202, 0x03)] with sp := 0xFFFF })).map
      (fun t => ((t.mem.read 0xFFFF, t.mem.read 0), (t.fault, t.run), (t.sp, t.pc, t.cyc)))
      = some ((0x02, 0x00), (some (.outOfRange 0x10000), .halted), (0xFFFF, 0x0203, 7)) := by decide

/-- Vector U2: an unhandled opcode at 0xFFFF. -/
theorem test_unhandled_reports :
    (nextOf (step (runAt 0xFFFF 1 [(65535, 0xFF)]))).map (fun t => (t.reports, t.pc, t.cyc))
      = some ([{ op := 0xFF, addr := 0xFFFF }], 0x0000, 0) := by decide

/-- Vector U6: the byte a 6502 uses to return leaves A, Z, N and SP. -/
theorem test_unhandled_changes_nothing_else :
    (nextOf (step { runAt 0x0200 1 [(0x200, 0x60)] with a := 0x12, flagZ := true, flagN := true, sp := 0x0150 })).map
      (fun t => (t.a, t.flagZ, t.flagN, t.sp)) = some (0x12, true, true, 0x0150) := by decide

/-! ## 5. A witness for the hypotheses of every obligation that has some -/

theorem test_meets_OpcodeMapsToOneHandler : defaultConfig.wf = true := by decide

theorem test_meets_DecodeOfEncode :
    defaultConfig.wf = true ∧ (Instr.jsr 0xFFFF).wf defaultConfig = true ∧ (Instr.unhandled 0xFF).wf defaultConfig = true := by
  decide

theorem test_meets_EncodeOfDecode : decode defaultConfig [0x20, 0xFF, 0xFF, 0x00] = .ok (.jsr 0xFFFF, [0x00]) := by decide

theorem test_meets_LengthFromOpcodeAlone :
    (runAt 0xFFFF 1 []).executing ∧ (runAt 0xFFFF 1 []).cfg.wf = true ∧
    (runAt 0xFFFF 1 []).byteAt (runAt 0xFFFF 1 []).pc ≠ 0x20 := by decide

theorem test_meets_MemoryAccessIsBoundsChecked : 65535 < 65536 ∧ 65536 ≤ 65536 := by decide

/-- The three clauses at their boundaries 65534, 65535 and 65536; no address falls under two. -/
theorem test_meets_WriteWordIsTwoByteWrites :
    65534 + 1 < 65536 ∧ ¬ 65535 + 1 < 65536 ∧ ¬ 65536 ≤ 65535 ∧ 65536 ≤ 65536 := by decide

theorem test_meets_ReadByteCostsOne : 65535 < 65536 := by decide

theorem test_meets_LittleEndianForDataAndCode :
    writeWord (0xFFFE : Word).toNat 0x1234 (runAt 0 10 []) = .done () (runAt 0 8 [(65534, 0x34), (65535, 0x12)]) := by decide

theorem test_meets_CanonicalMemoriesAreEqual :
    Memory.wf [(0, 1), (65535, 255)] = true ∧ ∀ a, Memory.read [(0, 1), (65535, 255)] a = Memory.read [(0, 1), (65535, 255)] a :=
  ⟨by decide, fun _ => rfl⟩

theorem test_meets_LdaZeroPageXLoadsByte :
    0x7F = ((0x80 : Byte).toNat + ({ State.reset with x := 0xFF } : State).x.toNat) % 256 := by decide

theorem test_meets_JsrPushesAndJumps : ({ State.reset with sp := 0xFFFE } : State).sp ≠ 0xFFFF := by decide

theorem test_meets_JsrFaultsAtTopOfMemory : ({ State.reset with sp := 0xFFFF } : State).sp = 0xFFFF := by decide

theorem test_meets_StepRunsDecodedInstruction :
    (runAt 0xFFFF 1 [(0, 0x42), (65535, 0xA9)]).executing ∧
    decode defaultConfig (runAt 0xFFFF 1 [(0, 0x42), (65535, 0xA9)]).window = .ok (.ldaImm 0x42, [0x00]) := by decide

theorem test_meets_PlacedWordIsRun :
    State.reset.cfg = defaultConfig ∧ decodeTableWord 24 0x424220 = some (.jsr 0x4242) := by decide

theorem test_meets_StepLdaImmediate :
    (runAt 0xFFFF 1 [(0, 0x80), (65535, 0xA9)]).executing ∧
    (runAt 0xFFFF 1 [(0, 0x80), (65535, 0xA9)]).byteAt 0xFFFF = 0xA9 ∧
    (runAt 0xFFFF 1 [(0, 0x80), (65535, 0xA9)]).byteAt (0xFFFF + 1) = 0x80 := by decide

theorem test_meets_StepLdaZeroPage :
    (runAt 0 1 [(0, 0xA5), (1, 0xFF), (255, 0x80)]).executing ∧ (runAt 0 1 [(0, 0xA5), (1, 0xFF), (255, 0x80)]).cfg.wf = true ∧
    (runAt 0 1 [(0, 0xA5), (1, 0xFF), (255, 0x80)]).byteAt 0 = (runAt 0 1 []).cfg.opcLdaZp ∧
    (runAt 0 1 [(0, 0xA5), (1, 0xFF), (255, 0x80)]).byteAt (0 + 1) = 0xFF ∧
    (runAt 0 1 [(0, 0xA5), (1, 0xFF), (255, 0x80)]).mem.read (0xFF : Byte).toNat = 0x80 := by decide

theorem test_meets_StepLdaZeroPageX :
    (runAt 2 1 [(2, 0xB5), (3, 0xFF), (255, 0x80)]).executing ∧ (runAt 2 1 [(2, 0xB5), (3, 0xFF), (255, 0x80)]).cfg.wf = true ∧
    (runAt 2 1 [(2, 0xB5), (3, 0xFF), (255, 0x80)]).byteAt 2 = (runAt 2 1 []).cfg.opcLdaZpX ∧
    (runAt 2 1 [(2, 0xB5), (3, 0xFF), (255, 0x80)]).byteAt (2 + 1) = 0xFF ∧
    (runAt 2 1 [(2, 0xB5), (3, 0xFF), (255, 0x80)]).mem.read (((0xFF : Byte).toNat + 0) % 256) = 0x80 := by decide

/-- Both clauses of StepJsr: the last SP that completes and the one that faults. -/
theorem test_meets_StepJsr :
    ({ runAt 0xFFFD 1 [(65533, 0x20), (65535, 0x03)] with sp := 0xFFFE } : State).executing ∧
    ({ runAt 0xFFFD 1 [(65533, 0x20), (65535, 0x03)] with sp := 0xFFFF } : State).executing ∧
    (runAt 0xFFFD 1 [(65533, 0x20), (65535, 0x03)]).cfg.wf = true ∧
    (runAt 0xFFFD 1 [(65533, 0x20), (65535, 0x03)]).byteAt 0xFFFD = 0x20 ∧
    (runAt 0xFFFD 1 [(65533, 0x20), (65535, 0x03)]).byteAt (0xFFFD + 1) = 0x00 ∧
    (runAt 0xFFFD 1 [(65533, 0x20), (65535, 0x03)]).byteAt (0xFFFD + 2) = 0x03 := by decide

theorem test_meets_StepUnhandled :
    (runAt 0xFFFF 1 [(65535, 0xFF)]).executing ∧ (runAt 0xFFFF 1 [(65535, 0xFF)]).byteAt 0xFFFF = 0xFF ∧
    (runAt 0xFFFF 1 [(65535, 0xFF)]).cfg.bound 0xFF = false := by decide

theorem test_meets_StepCostTable :
    (runAt 0xFFFC 1 [(65532, 0x20)]).executing ∧
    decode defaultConfig (runAt 0xFFFC 1 [(65532, 0x20)]).window = .ok (.jsr 0x0000, []) ∧
    (nextOf (step (runAt 0xFFFC 1 [(65532, 0x20)]))).isSome = true ∧ (runAt 0xFFFC 1 [(65532, 0x20)]).sp ≠ 0xFFFF := by decide

theorem test_meets_LoadFrame : (nextOf (exec (.ldaZpX 0xFF) { State.reset with x := 0x01 })).isSome = true := by decide

/-- Both clauses of JsrFrame, and a stored address whose two bytes are the last of memory. -/
theorem test_meets_JsrFrame :
    (nextOf (exec (.jsr 0x0300) { State.reset with sp := 0xFFFE })).isSome = true ∧
    (nextOf (exec (.jsr 0x0300) { State.reset with sp := 0xFFFF })).isSome = true ∧
    pushAddress { State.reset with sp := 0xFFFE } = 65534 := by decide

theorem test_meets_UnhandledFrame : (nextOf (exec (.unhandled 0xEA) State.reset)).isSome = true := by decide

theorem test_meets_YIsNeitherReadNorWritten : exec (.ldaImm 0x00) State.reset = .next { State.reset with flagZ := true } := rfl

theorem test_meets_XIsReadOnlyByIndexedLoad :
    exec (.unhandled 0xE8) State.reset = .next { State.reset with reports := [{ op := 0xE8, addr := 0xFFFB }] } ∧
    (∀ zp, Instr.unhandled 0xE8 ≠ .ldaZpX zp) ∧
    exec (.ldaZpX 0x00) State.reset = .next { State.reset with flagZ := true, cyc := -2 } ∧
    step (asked [.writeByteReg .x 0xFF]) = .next { State.reset with x := 0xFF } :=
  ⟨rfl, fun _ h => Instr.noConfusion h, rfl, rfl⟩

theorem test_meets_AccumulatorIsWrittenOnlyByLoads :
    (nextOf (exec (.ldaZp 0xFF) State.reset)).isSome = true ∧ (nextOf (exec (.jsr 0x0300) State.reset)).isSome = true := by decide

theorem test_meets_InertFlagsAreInert :
    (runAt 0xFFFC 1 []).executing ∧ (nextOf (step (runAt 0xFFFC 1 []))).isSome = true := by decide

theorem test_meets_ZeroAndNegativeFollowLoads :
    (nextOf (exec (.ldaImm 0x80) State.reset)).isSome = true ∧ (nextOf (exec (.jsr 0x0000) State.reset)).isSome = true := by
  decide

theorem test_meets_OnlyJsrPushFaults :
    (nextOf (exec (.jsr 0x0000) { State.reset with sp := 0xFFFF })).isSome = true ∧
    (nextOf (exec (.jsr 0x0000) { State.reset with sp := 0xFFFE })).isSome = true ∧ 65536 ≤ 65536 := by decide

theorem test_meets_NoStepStopsAfterReset : State.reset.init = true := by decide

theorem test_meets_FaultIsClearedOnlyByReset :
    ({ asked [.reset] with fault := some (.outOfRange 65536) } : State).Inv ∧
    (asked [.reset]).init = true ∧ (nextOf (step { asked [.reset] with fault := some (.outOfRange 65536) })).isSome = true := by
  decide

/-- Both clauses of ReportsAppendOnlyUnhandled. -/
theorem test_meets_ReportsAppendOnlyUnhandled :
    (nextOf (step (runAt 0xFFFF 1 []))).isSome = true ∧
    ((runAt 0xFFFF 1 []).executing ∧ (runAt 0xFFFF 1 []).cfg.bound ((runAt 0xFFFF 1 []).byteAt 0xFFFF) = false) ∧
    (nextOf (step State.reset)).isSome = true ∧ ¬ State.reset.executing := by decide

theorem test_meets_HostHasNoMoveDuringRun :
    (runAt 0xFFFF 0 []).init = true ∧ (runAt 0xFFFF 0 []).run = .running ∧ (nextOf (step (runAt 0xFFFF 0 []))).isSome = true := by
  decide

theorem test_meets_ParametersNeverChange : (nextOf (step (asked [.reset]))).isSome = true := by decide

/-- The three clauses of BudgetTestedBetweenInstructions, at budgets 1, 0 and 0. -/
theorem test_meets_BudgetTestedBetweenInstructions :
    (runAt 0xFFFF 1 []).executing ∧ (runAt 0xFFFF 0 []).run = .running ∧ (runAt 0xFFFF 0 []).cyc ≤ 0 ∧
    (asked [.run 0]).init = true ∧ (asked [.run 0]).run = .halted ∧ (asked [.run 0]).fault = none ∧
    (asked [.run 0]).requests = [.run 0] ∧ (asked [.run 0]).cfg.narrow 0 ≤ 0 := by decide

/-- The three clauses of RunRequest. -/
theorem test_meets_RunRequest :
    ({ asked [.run 1] with init := false } : State).requests = [.run 1] ∧
    ({ asked [.run 1] with fault := some (.outOfRange 65536) } : State).requests = [.run 1] ∧
    (asked [.run 1]).requests = [.run 1] ∧ (asked [.run 1]).init = true ∧ (asked [.run 1]).run = .halted ∧
    (asked [.run 1]).fault = none ∧ 0 < (asked [.run 1]).cfg.narrow 1 := by decide

/-- With the default counter and with the narrowest signed one. -/
theorem test_meets_BudgetOneRunsOneInstruction :
    (asked [.run 1]).cfg.budgetWide = true ∧ (withSigned 4 (asked [.run 1])).cfg.budgetWide = true ∧
    (asked [.run 1]).init = true ∧ (asked [.run 1]).run = .halted ∧ (asked [.run 1]).fault = none ∧
    (asked [.run 1]).requests = [.run 1] := by decide

/-- The four clauses of OnlyRunLeavesHalted: a run that starts, a run that ends, a read, and an idle step. -/
theorem test_meets_OnlyRunLeavesHalted :
    (nextOf (step (asked [.run 1]))).map (fun t => t.run) = some .running ∧
    (nextOf (step (runAt 0 0 []))).map (fun t => t.run) = some .halted ∧
    (nextOf (step (asked [.readByte 65535]))).map (fun t => t.replies) = some [.byte 0x00] ∧
    State.reset.run = .halted ∧ State.reset.requests = [] := by decide

theorem test_meets_EveryRunEnds :
    (runAt 0xFFFC (-5) []).Inv ∧ (runAt 0xFFFC (-5) []).init = true ∧ (runAt 0xFFFC (-5) []).run = .running := by decide

theorem test_meets_UnloadedMemoryRunsUnhandled :
    (runAt 0xFFFF 2 []).init = true ∧ (runAt 0xFFFF 2 []).run = .running ∧ (runAt 0xFFFF 2 []).cfg.bound 0x00 = false ∧
    (∀ a, (runAt 0xFFFF 2 []).mem.read a = 0x00) ∧ (runAt 0xFFFF 2 []).cfg.narrow (runAt 0xFFFF 2 []).cyc = (runAt 0xFFFF 2 []).cyc ∧
    ((2 : Nat) : Int) ≤ (runAt 0xFFFF 2 []).cyc :=
  ⟨rfl, rfl, by decide, fun _ => rfl, by decide, by decide⟩

/-- The last call that fits ends at the top of memory. -/
theorem test_meets_CallsGrowStackByTwo :
    ({ State.reset with sp := 0xFFFC } : State).sp.toNat + 2 * ([0x0300, 0xFFFF] : List Word).length ≤ 65536 := by decide

theorem test_meets_ResetSetsEveryItem :
    (asked [.reset]).requests = [.reset] ∧ (asked [.reset]).run = .halted ∧
    ({ asked [.reset] with init := false, run := .running } : State).init = false := by decide

theorem test_meets_ResetForgetsTheState : State.reset.cfg = (runAt 7 7 [(7, 7)]).cfg := by decide

theorem test_meets_RefusedBeforeFirstReset :
    ({ asked [.run 5] with init := false } : State).init = false ∧
    ({ asked [.run 5] with init := false } : State).requests = [.run 5] := by decide

/-- One request of each kind, the load at the last address. -/
theorem test_meets_HostWritesReadBack :
    State.reset.init = true ∧ State.reset.run = .halted ∧ 65535 < 65536 ∧
    (asked [.loadByte 65535 0x77]).requests = [.loadByte 65535 0x77] ∧
    (asked [.writeByteReg .a 0xFF]).requests = [.writeByteReg .a 0xFF] ∧
    (asked [.writeByteReg .x 0xFF]).requests = [.writeByteReg .x 0xFF] ∧
    (asked [.writeByteReg .y 0xFF]).requests = [.writeByteReg .y 0xFF] ∧
    (asked [.writeWordReg .pc 0xFFFF]).requests = [.writeWordReg .pc 0xFFFF] ∧
    (asked [.writeWordReg .sp 0xFFFF]).requests = [.writeWordReg .sp 0xFFFF] ∧
    ∀ f ∈ [FlagName.c, .z, .i, .d, .b, .v, .n], (asked [.writeFlag f true]).requests = [.writeFlag f true] := by decide

theorem test_meets_StepKeepsInvariant :
    (runAt 0xFFFC 1 [(65532, 0x20)]).Inv ∧ (nextOf (step (runAt 0xFFFC 1 [(65532, 0x20)]))).isSome = true := by decide

/-- One request of each kind, the byte accesses on both sides of the end of memory. -/
theorem test_meets_HostReadsAnswerAndChangeNothing :
    State.reset.init = true ∧ State.reset.run = .halted ∧ 65535 < 65536 ∧ 65536 ≤ 65536 ∧
    (asked [.readByte 65535]).requests = [.readByte 65535] ∧ (asked [.readByte 65536]).requests = [.readByte 65536] ∧
    (asked [.loadByte 65536 0x77]).requests = [.loadByte 65536 0x77] ∧
    (∀ r ∈ [(ByteReg.a, State.reset.a), (.x, State.reset.x), (.y, State.reset.y)],
      (asked [.readByteReg r.1]).requests = [.readByteReg r.1]) ∧
    (∀ r ∈ [(WordReg.pc, State.reset.pc), (.sp, State.reset.sp)],
      (asked [.readWordReg r.1]).requests = [.readWordReg r.1]) ∧
    ∀ f ∈ [(FlagName.c, State.reset.flagC), (.z, State.reset.flagZ), (.i, State.reset.flagI), (.d, State.reset.flagD),
      (.b, State.reset.flagB), (.v, State.reset.flagV), (.n, State.reset.flagN)],
      (asked [.readFlag f.1]).requests = [.readFlag f.1] := by decide

/-- The three clauses of BudgetCounterRange: the default counter, a signed one at the ends of its range, and the narrowest one that is
wide enough, in a run at its largest CYC. -/
theorem test_meets_BudgetCounterRange :
    defaultConfig.budget = .integer ∧ { defaultConfig with budget := .signed (7 + 1) }.budget = .signed (7 + 1) ∧
    (-(2 ^ 7) : Int) ≤ -128 ∧ (127 : Int) < 2 ^ 7 ∧
    (withSigned 4 (runAt 0 7 [])).Inv ∧ (withSigned 4 (runAt 0 7 [])).executing := by decide

end Sys2Proof.Tests
end

section
/-! SUPPORT. What `exec` comes to, said once: every instruction answers a next state, and `effect` gives it without the
primitives' `Attempt`s. -/

namespace Sys2Proof.Machine

/-- The state JSR leaves: after the whole push the call is entered, and at SP = 0xFFFF the push's second byte raises and the
fault is taken (R120, R132). -/
def jsrEffect (abs : Word) (s : State) : State :=
  if s.sp = 0xFFFF then
    (s.setMem (s.mem.write 65535 (lo8 (returnAddress s)))).takeFault (.outOfRange 65536)
  else
    ((s.setMem ((s.mem.write (pushAddress s) (lo8 (returnAddress s))).write (pushAddress s + 1)
      (hi8 (returnAddress s)))).deduct 2).enterCall abs

/-- The state each instruction leaves (`exec_eq_effect`). -/
def effect (i : Instr) (s : State) : State :=
  match i with
  | .jsr abs => jsrEffect abs s
  | .ldaZp zp => (s.deduct 1).loadA (s.mem.read zp.toNat)
  | .ldaImm imm => s.loadA imm
  | .ldaZpX zp => (s.deduct 2).loadA (s.mem.read ((zp.toNat + s.x.toNat) % 256))
  | .unhandled op => s.emit { op := op, addr := s.pc - 1 }

theorem pushAddress_top {s : State} (h : s.sp = 0xFFFF) : pushAddress s = 65535 := by
  rw [pushAddress, h]
  rfl

/-- Below the top of memory both bytes of the push have an address. -/
theorem pushAddress_succ_lt {s : State} (h : s.sp ≠ 0xFFFF) : pushAddress s + 1 < memSize := by
  unfold pushAddress memSize
  bv_omega

theorem execJsr_eq_jsrEffect (abs : Word) (s : State) : execJsr abs s = .next (jsrEffect abs s) := by
  by_cases h : s.sp = 0xFFFF
  · simp only [execJsr, jsrEffect, if_pos h, pushAddress_top h, writeWord_top, Attempt.andThen_raised, finish_raised]
  · simp only [execJsr, jsrEffect, if_neg h, writeWord_done _ s (pushAddress_succ_lt h), Attempt.andThen_done,
      finish_done]

/-- Every instruction answers a next state. -/
theorem exec_eq_effect (i : Instr) (s : State) : exec i s = .next (effect i s) := by
  cases i with
  | jsr abs => exact execJsr_eq_jsrEffect abs s
  | ldaZp zp =>
    obtain ⟨_, _, h, _, hzp, _⟩ := execLoad_next .zeroPage zp s
    obtain ⟨rfl, rfl⟩ := hzp rfl
    exact h
  | ldaImm imm =>
    obtain ⟨_, _, h, himm, _, _⟩ := execLoad_next .immediate imm s
    obtain ⟨rfl, rfl⟩ := himm rfl
    exact h
  | ldaZpX zp =>
    obtain ⟨_, _, h, _, _, hzpx⟩ := execLoad_next .zeroPageX zp s
    obtain ⟨rfl, rfl⟩ := hzpx rfl
    exact h
  | unhandled op => rfl

theorem eq_effect_of_exec {i : Instr} {s t : State} (h : exec i s = .next t) : t = effect i s := by
  rw [exec_eq_effect] at h
  cases h
  rfl

end Sys2Proof.Machine
end

section
/-! SUPPORT. What the instructions do with A, X, Y and the flags (R20 to R22, R26 to R28): what they keep, and which of them
they do not look at. -/

namespace Sys2Proof.Machine

/-- JSR changes only PC, SP, the memory and CYC, and with a fault FAULT, RUN and the replies. -/
theorem jsrEffect_frame (abs : Word) (s : State) :
    jsrEffect abs s =
      { s with
        pc := (jsrEffect abs s).pc
        sp := (jsrEffect abs s).sp
        mem := (jsrEffect abs s).mem
        cyc := (jsrEffect abs s).cyc
        fault := (jsrEffect abs s).fault
        run := (jsrEffect abs s).run
        replies := (jsrEffect abs s).replies } := by
  by_cases h : s.sp = 0xFFFF
  · simp only [jsrEffect, if_pos h]
    rfl
  · simp only [jsrEffect, if_neg h]
    rfl

/-- JSR looks at none of A, X and Y: it gives the same whatever they hold. -/
theorem jsrEffect_setRegs (abs : Word) (s : State) (a x y : Byte) :
    jsrEffect abs { s with a := a, x := x, y := y } = { jsrEffect abs s with a := a, x := x, y := y } := by
  by_cases h : s.sp = 0xFFFF
  · simp only [jsrEffect, if_pos h]
    rfl
  · simp only [jsrEffect, if_neg h]
    rfl

@[simp] theorem jsrEffect_a (abs : Word) (s : State) : (jsrEffect abs s).a = s.a := by
  rw [jsrEffect_frame]

@[simp] theorem jsrEffect_x (abs : Word) (s : State) : (jsrEffect abs s).x = s.x := by
  rw [jsrEffect_frame]

@[simp] theorem jsrEffect_y (abs : Word) (s : State) : (jsrEffect abs s).y = s.y := by
  rw [jsrEffect_frame]

@[simp] theorem jsrEffect_flagZ (abs : Word) (s : State) : (jsrEffect abs s).flagZ = s.flagZ := by
  rw [jsrEffect_frame]

@[simp] theorem jsrEffect_flagN (abs : Word) (s : State) : (jsrEffect abs s).flagN = s.flagN := by
  rw [jsrEffect_frame]

/-- No instruction writes X or Y (R21, R22). -/
theorem effect_keeps_index (i : Instr) (s : State) : (effect i s).x = s.x ∧ (effect i s).y = s.y := by
  cases i with
  | jsr abs => exact ⟨jsrEffect_x abs s, jsrEffect_y abs s⟩
  | ldaZp zp => exact ⟨rfl, rfl⟩
  | ldaImm imm => exact ⟨rfl, rfl⟩
  | ldaZpX zp => exact ⟨rfl, rfl⟩
  | unhandled op => exact ⟨rfl, rfl⟩

/-- No instruction looks at Y (R22). -/
theorem effect_setY (i : Instr) (s : State) (v : Byte) : effect i { s with y := v } = { effect i s with y := v } := by
  cases i with
  | jsr abs => simpa [effect] using jsrEffect_setRegs abs s s.a s.x v
  | ldaZp zp => rfl
  | ldaImm imm => rfl
  | ldaZpX zp => rfl
  | unhandled op => rfl

/-- Only the indexed load looks at X (R21). -/
theorem effect_setX {i : Instr} (h : ∀ zp, i ≠ .ldaZpX zp) (s : State) (v : Byte) :
    effect i { s with x := v } = { effect i s with x := v } := by
  cases i with
  | jsr abs => simpa [effect] using jsrEffect_setRegs abs s s.a v s.y
  | ldaZp zp => rfl
  | ldaImm imm => rfl
  | ldaZpX zp => exact absurd rfl (h zp)
  | unhandled op => rfl

/-- A load takes nothing from the old A: all 8 bits, and Z and N with them, are replaced. -/
theorem effect_setA_of_load {i : Instr} (h : ∃ b, i = .ldaImm b ∨ i = .ldaZp b ∨ i = .ldaZpX b) (s : State) (v : Byte) :
    effect i { s with a := v } = effect i s := by
  obtain ⟨b, rfl | rfl | rfl⟩ := h <;> rfl

/-- JSR and the unhandled opcodes look at A no more than they write it. -/
theorem effect_setA_of_not_load {i : Instr} (h : (∃ w, i = .jsr w) ∨ ∃ op, i = .unhandled op) (s : State) (v : Byte) :
    effect i { s with a := v } = { effect i s with a := v } := by
  obtain ⟨w, rfl⟩ | ⟨op, rfl⟩ := h
  · simpa [effect] using jsrEffect_setRegs w s v s.x s.y
  · rfl

theorem effect_keeps_of_not_load {i : Instr} (h : (∃ w, i = .jsr w) ∨ ∃ op, i = .unhandled op) (s : State) :
    (effect i s).a = s.a ∧ (effect i s).flagZ = s.flagZ ∧ (effect i s).flagN = s.flagN := by
  obtain ⟨w, rfl⟩ | ⟨op, rfl⟩ := h
  · exact ⟨jsrEffect_a w s, jsrEffect_flagZ w s, jsrEffect_flagN w s⟩
  · exact ⟨rfl, rfl, rfl⟩

/-- The one form of every load's effect: `loadA` of some byte, after a deduction that touches no flag. -/
theorem effect_of_load {i : Instr} (h : ∃ b, i = .ldaImm b ∨ i = .ldaZp b ∨ i = .ldaZpX b) (s : State) :
    ∃ c v, effect i s = { s with cyc := c }.loadA v := by
  obtain ⟨b, rfl | rfl | rfl⟩ := h
  · exact ⟨s.cyc, b, rfl⟩
  · exact ⟨(s.deduct 1).cyc, _, rfl⟩
  · exact ⟨(s.deduct 2).cyc, _, rfl⟩

/-- Of the host's requests only a reset and the write of X can change X (R21, R156). -/
theorem serveInit_x {s : State} {r : HostRequest} (hreset : r ≠ .reset) (hwrite : ∀ v, r ≠ .writeByteReg .x v) :
    (s.serveInit r).x = s.x := by
  cases r with
  | reset => exact absurd rfl hreset
  | loadByte a v =>
    by_cases h : a < memSize
    · simp [State.serveInit, hostLoad_done s v h]
    · simp [State.serveInit, hostLoad_raised s v (not_lt.mp h)]
  | readByte a =>
    by_cases h : a < memSize
    · simp [State.serveInit, hostRead_done s h]
    · simp [State.serveInit, hostRead_raised s (not_lt.mp h)]
  | writeByteReg r v =>
    cases r with
    | a => rfl
    | x => exact absurd rfl (hwrite v)
    | y => rfl
  | writeWordReg r v => cases r <;> rfl
  | writeFlag f v => cases f <;> rfl
  | readByteReg r => rfl
  | readWordReg r => rfl
  | readFlag f => rfl
  | run budget =>
    rw [State.serveInit, startRun_frame]
    rfl

/-- A step that changes X served a reset or a host write of X, while no run was in progress. -/
theorem step_changes_x {s t : State} (h : step s = .next t) (hx : t.x ≠ s.x) :
    ¬ (s.init = true ∧ s.run = .running) ∧
      ∃ rest, s.requests = .reset :: rest ∨ ∃ v, s.requests = .writeByteReg .x v :: rest := by
  obtain ⟨_, _, _, rfl⟩ | ⟨_, i, _, _, he⟩ | ⟨_, _, rfl⟩ | ⟨hrun, r, rest, hq, _, rfl⟩ := step_next_cases h
  · exact absurd rfl hx
  · rw [eq_effect_of_exec he] at hx
    exact absurd (effect_keeps_index i _).1 hx
  · exact absurd rfl hx
  · refine ⟨hrun, rest, ?_⟩
    by_contra hno
    refine hx (serveInit_x (fun e => hno ?_) fun v e => hno ?_)
    · exact .inl (e ▸ hq)
    · exact .inr ⟨v, e ▸ hq⟩

theorem run_eq_halted {s : State} (h : s.run ≠ .running) : s.run = .halted := by
  cases hr : s.run with
  | running => exact absurd hr h
  | halted => rfl

end Sys2Proof.Machine
end

section
/-! SUPPORT. The statements about A, X, Y, Z and N. -/

namespace Sys2Proof.Machine

/-- Settles O32: every instruction's effect keeps Y and commutes with a change of it. -/
theorem yIsNeitherReadNorWritten : Obligations.YIsNeitherReadNorWritten := by
  refine ⟨fun i s t v h => ?_, State.performReset_y⟩
  obtain rfl := eq_effect_of_exec h
  exact ⟨(effect_keeps_index i s).2, by rw [exec_eq_effect, effect_setY]⟩

/-- Settles O33: the instructions by their effects, the step by its cases. -/
theorem xIsReadOnlyByIndexedLoad : Obligations.XIsReadOnlyByIndexedLoad := by
  refine ⟨fun i s t v h => ?_, fun zp s t h => ?_, State.performReset_x, fun s t h hx => ?_⟩
  · obtain rfl := eq_effect_of_exec h
    exact ⟨(effect_keeps_index i s).1, fun hi => by rw [exec_eq_effect, effect_setX hi]⟩
  · obtain rfl := eq_effect_of_exec h
    exact State.loadA_a ..
  · obtain ⟨hrun, hserved⟩ := step_changes_x h hx
    cases hinit : s.init with
    | false => exact .inl rfl
    | true => exact .inr ⟨run_eq_halted fun hr => hrun ⟨hinit, hr⟩, hserved⟩

/-- Settles O34: a load's effect forgets the old A, and the other effects keep A and commute with a change of it. -/
theorem accumulatorIsWrittenOnlyByLoads : Obligations.AccumulatorIsWrittenOnlyByLoads := by
  refine ⟨fun i s t v h => ?_, State.performReset_a⟩
  obtain rfl := eq_effect_of_exec h
  refine ⟨fun hload => ?_, fun hother => ?_⟩
  · rw [exec_eq_effect, effect_setA_of_load hload]
  · obtain ⟨ha, _, _⟩ := effect_keeps_of_not_load hother s
    exact ⟨ha, by rw [exec_eq_effect, effect_setA_of_not_load hother]⟩

/-- Settles O36: every load ends in `loadA`, which sets Z and N from the byte it puts into A. -/
theorem zeroAndNegativeFollowLoads : Obligations.ZeroAndNegativeFollowLoads := by
  intro i s t h
  obtain rfl := eq_effect_of_exec h
  refine ⟨fun hload => ?_, fun hother => ?_⟩
  · obtain ⟨c, v, he⟩ := effect_of_load hload s
    rw [he]
    exact ⟨zeroOf_eq_decide v, negativeOf_eq_decide v, rfl, rfl, rfl, rfl, rfl⟩
  · exact (effect_keeps_of_not_load hother s).2

end Sys2Proof.Machine
end

section
/-! SUPPORT. The statement about byte accesses to memory. -/

namespace Sys2Proof.Machine

/-- Settles O8: below the memory's size an access completes and the written byte alone changes; from there on it raises. -/
theorem memoryAccessIsBoundsChecked : Obligations.MemoryAccessIsBoundsChecked := by
  refine ⟨fun a s h => memRead_done s h, fun a v s h => ?_, fun a v s h => ⟨memRead_raised s h, memWrite_raised v s h⟩⟩
  exact ⟨s.mem.write a v, memWrite_done v s h, s.mem.read_write_same a v, fun b hb => s.mem.read_write_ne v hb⟩

end Sys2Proof.Machine
end

section
/-! SUPPORT. The opcode bytes the source fixes are decoded to their handlers (R63, R86), and the instructions that carry them
decode from their own encoding (R61, R62). -/

namespace Sys2Proof

/-- The load-immediate opcode is tested first, so no parameter can hide it. -/
theorem decodeOpcode_opcLdaImm (cfg : Config) : decodeOpcode cfg opcLdaImm = .ldaImm := if_pos rfl

/-- The JSR opcode is tested after the two open zero-page opcodes, which R6 keeps apart from it. -/
theorem decodeOpcode_opcJsr {cfg : Config} (h : cfg.wf = true) : decodeOpcode cfg opcJsr = .jsr := by
  simp only [Config.wf, Bool.and_eq_true, bne_iff_ne] at h
  obtain ⟨⟨_, hzp⟩, hzpX⟩ := h
  have himm : opcJsr ≠ opcLdaImm := by decide
  rw [decodeOpcode, if_neg himm, if_neg hzp.symm, if_neg hzpX.symm, if_pos rfl]

theorem decode_encode_ldaImm (cfg : Config) (imm : Byte) (rest : List Byte) :
    decode cfg (encode cfg (.ldaImm imm) ++ rest) = .ok (.ldaImm imm, rest) := by
  simp [encode, decode, decodeOpcode_opcLdaImm]

theorem decode_encode_jsr {cfg : Config} (h : cfg.wf = true) (abs : Word) (rest : List Byte) :
    decode cfg (encode cfg (.jsr abs) ++ rest) = .ok (.jsr abs, rest) := by
  simp only [encode, decode, List.cons_append, List.nil_append, decodeOpcode_opcJsr h, joinBytes_lo8_hi8]

theorem defaultConfig_wf : defaultConfig.wf = true := by decide

end Sys2Proof
end

section
/-! SUPPORT. The statement about the source's encoding examples (R68). -/

namespace Sys2Proof.Machine

/-- Settles O1: the three encodings are computed, and each word decodes because it is its instruction's encoding. -/
theorem sourceExamplesEncode : Obligations.SourceExamplesEncode := by
  have hjsr : encode defaultConfig (.jsr 0x4242) = [0x20, 0x42, 0x42] := by decide
  have h84 : encode defaultConfig (.ldaImm 0x84) = [0xA9, 0x84] := by decide
  have h00 : encode defaultConfig (.ldaImm 0x00) = [0xA9, 0x00] := by decide
  refine ⟨?_, ?_, ?_, hjsr, h84, h00, by decide, by decide, by decide⟩
  · exact hjsr ▸ decode_encode_jsr defaultConfig_wf 0x4242 []
  · exact h84 ▸ decode_encode_ldaImm defaultConfig 0x84 []
  · exact h00 ▸ decode_encode_ldaImm defaultConfig 0x00 []

end Sys2Proof.Machine
end

section
/-! SUPPORT. The mapping from opcode byte to handler, byte by byte (R63, R64, R86): with `decodeOpcode_opcLdaImm` and
`decodeOpcode_opcJsr` the lemmas here say what every byte maps to. -/

namespace Sys2Proof

/-- The constraint of R6 as inequalities of the handled opcodes. -/
theorem Config.wf_iff (cfg : Config) :
    cfg.wf = true ↔ cfg.opcLdaZp ≠ opcLdaImm ∧ cfg.opcLdaZpX ≠ opcLdaImm ∧ cfg.opcLdaZp ≠ cfg.opcLdaZpX ∧
      cfg.opcLdaZp ≠ opcJsr ∧ cfg.opcLdaZpX ≠ opcJsr := by
  simp only [Config.wf, Bool.and_eq_true, bne_iff_ne, and_assoc]

theorem decodeOpcode_opcLdaZp {cfg : Config} (h : cfg.wf = true) : decodeOpcode cfg cfg.opcLdaZp = .ldaZp := by
  obtain ⟨himm, -⟩ := cfg.wf_iff.mp h
  rw [decodeOpcode, if_neg himm, if_pos rfl]

theorem decodeOpcode_opcLdaZpX {cfg : Config} (h : cfg.wf = true) : decodeOpcode cfg cfg.opcLdaZpX = .ldaZpX := by
  obtain ⟨-, himm, hzp, -⟩ := cfg.wf_iff.mp h
  rw [decodeOpcode, if_neg himm, if_neg hzp.symm, if_pos rfl]

/-- A byte that differs from all four opcodes fails every test. -/
theorem decodeOpcode_unbound {cfg : Config} {op : Byte} (himm : op ≠ opcLdaImm) (hzp : op ≠ cfg.opcLdaZp)
    (hzpX : op ≠ cfg.opcLdaZpX) (hjsr : op ≠ opcJsr) : decodeOpcode cfg op = .unhandled := by
  rw [decodeOpcode, if_neg himm, if_neg hzp, if_neg hzpX, if_neg hjsr]

end Sys2Proof
end

section
/-! SUPPORT. The statement about the mapping from opcode byte to handler (R86). -/

namespace Sys2Proof.Machine

/-- Settles O3: the byte is one of the four opcodes or none of them; what it maps to is known in each case, and R6 tells the
four apart. -/
theorem opcodeMapsToOneHandler : Obligations.OpcodeMapsToOneHandler := by
  intro cfg hwf op
  obtain ⟨hzpImm, hzpXImm, hzpZpX, hzpJsr, hzpXJsr⟩ := cfg.wf_iff.mp hwf
  have himmJsr : opcLdaImm ≠ opcJsr := by decide
  rw [show (0xA9 : Byte) = opcLdaImm from rfl, show (0x20 : Byte) = opcJsr from rfl]
  by_cases himm : op = opcLdaImm
  · subst himm
    simp [decodeOpcode_opcLdaImm, hzpImm.symm, hzpXImm.symm, himmJsr]
  by_cases hzp : op = cfg.opcLdaZp
  · subst hzp
    simp [decodeOpcode_opcLdaZp hwf, hzpImm, hzpZpX, hzpJsr]
  by_cases hzpX : op = cfg.opcLdaZpX
  · subst hzpX
    simp [decodeOpcode_opcLdaZpX hwf, hzpXImm, hzpZpX.symm, hzpXJsr]
  by_cases hjsr : op = opcJsr
  · subst hjsr
    simp [decodeOpcode_opcJsr hwf, himmJsr.symm, hzpJsr.symm, hzpXJsr.symm]
  · simp [decodeOpcode_unbound himm hzp hzpX hjsr, himm, hzp, hzpX, hjsr]

end Sys2Proof.Machine
end

section
/-! SUPPORT. The statement about ReadByte (R85). -/

namespace Sys2Proof.Machine

/-- A read inside the memory completes and takes one from the budget (R85); `readByte_done` is the case of a 16-bit address. -/
theorem readByte_done_of_lt {a : Nat} (s : State) (h : a < memSize) :
    readByte a s = .done (s.mem.read a) (s.deduct 1) := by
  rw [readByte, memRead_done s h, Attempt.andThen_done]

/-- Settles O12: the deduction is the one change a completed read makes, and both effective addresses are bytes widened. -/
theorem readByteCostsOne : Obligations.ReadByteCostsOne := by
  refine ⟨fun a s ha => ?_, fun zp x => ⟨?_, ?_⟩⟩
  · exact ⟨s.cfg.narrow (s.cyc - 1), readByte_done_of_lt s ha, fun hb => narrow_integer hb _⟩
  · exact (toNat_effZeroPage zp).trans_lt zp.isLt
  · exact (toNat_effZeroPageX zp x).trans_lt (Nat.mod_lt _ (by decide))

end Sys2Proof.Machine
end

section
/-! SUPPORT. The zero-page loads decode from their own encoding under every admitted choice of their opcodes (R6, R61). -/

namespace Sys2Proof

theorem decode_encode_ldaZp {cfg : Config} (h : cfg.wf = true) (zp : Byte) (rest : List Byte) :
    decode cfg (encode cfg (.ldaZp zp) ++ rest) = .ok (.ldaZp zp, rest) := by
  simp only [encode, decode, List.cons_append, List.nil_append, decodeOpcode_opcLdaZp h]

theorem decode_encode_ldaZpX {cfg : Config} (h : cfg.wf = true) (zp : Byte) (rest : List Byte) :
    decode cfg (encode cfg (.ldaZpX zp) ++ rest) = .ok (.ldaZpX zp, rest) := by
  simp only [encode, decode, List.cons_append, List.nil_append, decodeOpcode_opcLdaZpX h]

end Sys2Proof
end

section
/-! SUPPORT. One whole step of a run: the effect of the instruction that stands at PC, and what the loads' effects come to
with the fetch of their two bytes included (R81, R88, R103 to R105). -/

namespace Sys2Proof.Machine

/-- While a run is executing, the step is the effect of the decoded instruction on the state its fetch leaves. -/
theorem step_eq_effect {s : State} {i : Instr} {rest : List Byte} (hrun : s.executing)
    (hd : decode s.cfg s.window = .ok (i, rest)) : step s = .next (effect i (s.fetched i.length)) := by
  obtain ⟨hinit, hrunning, hcyc⟩ := hrun
  rw [step_running hinit hrunning, iteration, if_neg (not_le.mpr hcyc), fetchInstr_decode hd]
  exact exec_eq_effect i _

theorem effect_ldaImm_fetched (imm : Byte) (s : State) :
    effect (.ldaImm imm) (s.fetched 2) = ((s.advancePc 2).deduct 2).loadA imm := rfl

/-- The zero-page read adds one to the fetch's cost of two. -/
theorem effect_ldaZp_fetched (zp : Byte) (s : State) :
    effect (.ldaZp zp) (s.fetched 2) = ((s.advancePc 2).deduct 3).loadA (s.mem.read zp.toNat) :=
  congrArg (State.loadA · _) (deduct_deduct (s.advancePc 2) 2 1)

/-- The index addition and the read add two to the fetch's cost of two. -/
theorem effect_ldaZpX_fetched (zp : Byte) (s : State) :
    effect (.ldaZpX zp) (s.fetched 2) =
      ((s.advancePc 2).deduct 4).loadA (s.mem.read ((zp.toNat + s.x.toNat) % 256)) :=
  congrArg (State.loadA · _) (deduct_deduct (s.advancePc 2) 2 2)

theorem State.loadA_eq (s : State) (v : Byte) :
    s.loadA v = { s with a := v, flagZ := decide (v = 0x00), flagN := decide (0x80 ≤ v.toNat) } := by
  rw [← zeroOf_eq_decide, ← negativeOf_eq_decide]
  rfl

/-- What R103 to R105 have in common: a load of `v` that moves PC on by 2 and costs `n`, field by field. -/
theorem load_next_state {s : State} {n : Nat} {v : Byte}
    (h : step s = .next (((s.advancePc 2).deduct n).loadA v)) :
    ∃ c,
      step s =
        .next { s with
          a := v
          flagZ := decide (v = 0x00)
          flagN := decide (0x80 ≤ v.toNat)
          pc := s.pc + 2
          cyc := c } ∧
      (s.cfg.budget = .integer → c = s.cyc - (n : Int)) := by
  rw [State.loadA_eq] at h
  exact ⟨s.cfg.narrow (s.cyc - (n : Int)), h, fun hb => narrow_integer hb _⟩

end Sys2Proof.Machine
end

section
/-! SUPPORT. The statements about the loads as one step from their bytes in memory (R103 to R105). -/

namespace Sys2Proof.Machine

/-- Settles O23: 0xA9 is tested first by the decoder, and the load costs its two fetches. -/
theorem stepLdaImmediate : Obligations.StepLdaImmediate := by
  intro s imm hrun hop himm
  have hd : decode s.cfg s.window = .ok (.ldaImm imm, [s.byteAt (s.pc + 2)]) := by
    rw [State.window, hop, himm]
    exact decode_encode_ldaImm s.cfg imm _
  exact load_next_state ((step_eq_effect hrun hd).trans (congrArg _ (effect_ldaImm_fetched imm s)))

/-- Settles O24: R6 keeps the opcode apart from 0xA9, and the load costs its two fetches and one read. -/
theorem stepLdaZeroPage : Obligations.StepLdaZeroPage := by
  rintro s zp _ hrun hwf hop hzp rfl
  have hd : decode s.cfg s.window = .ok (.ldaZp zp, [s.byteAt (s.pc + 2)]) := by
    rw [State.window, hop, hzp]
    exact decode_encode_ldaZp hwf zp _
  exact load_next_state ((step_eq_effect hrun hd).trans (congrArg _ (effect_ldaZp_fetched zp s)))

/-- Settles O25: R6 keeps the opcode apart from those tested before it, and the load costs its two fetches, the index
addition and one read. -/
theorem stepLdaZeroPageX : Obligations.StepLdaZeroPageX := by
  rintro s zp _ hrun hwf hop hzp rfl
  have hd : decode s.cfg s.window = .ok (.ldaZpX zp, [s.byteAt (s.pc + 2)]) := by
    rw [State.window, hop, hzp]
    exact decode_encode_ldaZpX hwf zp _
  exact load_next_state ((step_eq_effect hrun hd).trans (congrArg _ (effect_ldaZpX_fetched zp s)))

end Sys2Proof.Machine
end

section
/-! SUPPORT. The decoder, said once: which byte each handler is reached by, and what every decoded instruction was read from
(R60 to R65, R86). -/

namespace Sys2Proof

/-- The bytes R64 leaves unhandled. -/
theorem Config.bound_eq_false_iff (cfg : Config) (op : Byte) :
    cfg.bound op = false ↔ op ≠ opcLdaImm ∧ op ≠ cfg.opcLdaZp ∧ op ≠ cfg.opcLdaZpX ∧ op ≠ opcJsr := by
  simp only [Config.bound, Bool.or_eq_false_iff, beq_eq_false_iff_ne, and_assoc]

theorem decodeOpcode_of_bound_eq_false {cfg : Config} {op : Byte} (h : cfg.bound op = false) :
    decodeOpcode cfg op = .unhandled := by
  obtain ⟨himm, hzp, hzpX, hjsr⟩ := (cfg.bound_eq_false_iff op).mp h
  exact decodeOpcode_unbound himm hzp hzpX hjsr

/-- Every byte is one of the four bound opcodes with its handler, or bound to none, for any parameters. -/
theorem decodeOpcode_cases (cfg : Config) (op : Byte) :
    (op = opcLdaImm ∧ decodeOpcode cfg op = .ldaImm) ∨
    (op = cfg.opcLdaZp ∧ decodeOpcode cfg op = .ldaZp) ∨
    (op = cfg.opcLdaZpX ∧ decodeOpcode cfg op = .ldaZpX) ∨
    (op = opcJsr ∧ decodeOpcode cfg op = .jsr) ∨
    (cfg.bound op = false ∧ decodeOpcode cfg op = .unhandled) := by
  by_cases himm : op = opcLdaImm
  · exact .inl ⟨himm, himm ▸ decodeOpcode_opcLdaImm cfg⟩
  by_cases hzp : op = cfg.opcLdaZp
  · exact .inr (.inl ⟨hzp, by rw [decodeOpcode, if_neg himm, if_pos hzp]⟩)
  by_cases hzpX : op = cfg.opcLdaZpX
  · exact .inr (.inr (.inl ⟨hzpX, by rw [decodeOpcode, if_neg himm, if_neg hzp, if_pos hzpX]⟩))
  by_cases hjsr : op = opcJsr
  · exact .inr (.inr (.inr (.inl ⟨hjsr, by rw [decodeOpcode, if_neg himm, if_neg hzp, if_neg hzpX, if_pos hjsr]⟩)))
  · have hb := (cfg.bound_eq_false_iff op).mpr ⟨himm, hzp, hzpX, hjsr⟩
    exact .inr (.inr (.inr (.inr ⟨hb, decodeOpcode_of_bound_eq_false hb⟩)))

theorem decode_encode_unhandled {cfg : Config} {op : Byte} (h : cfg.bound op = false) (rest : List Byte) :
    decode cfg (encode cfg (.unhandled op) ++ rest) = .ok (.unhandled op, rest) := by
  simp only [encode, decode, List.cons_append, List.nil_append, decodeOpcode_of_bound_eq_false h]

/-- What decodes is well-formed and was read from its own encoding. -/
theorem decode_ok {cfg : Config} {bs rest : List Byte} {i : Instr} (h : decode cfg bs = .ok (i, rest)) :
    i.wf cfg = true ∧ bs = encode cfg i ++ rest := by
  cases bs with
  | nil => cases h
  | cons op bs =>
    obtain ⟨rfl, hd⟩ | ⟨rfl, hd⟩ | ⟨rfl, hd⟩ | ⟨rfl, hd⟩ | ⟨hb, hd⟩ := decodeOpcode_cases cfg op
    case inl | inr.inl | inr.inr.inl =>
      cases bs <;> simp only [decode, hd] at h <;> cases h
      exact ⟨rfl, rfl⟩
    case inr.inr.inr.inl =>
      obtain _ | ⟨lo, _ | ⟨hi, bs⟩⟩ := bs <;> simp only [decode, hd] at h <;> cases h
      exact ⟨rfl, by rw [encode, lo8_joinBytes, hi8_joinBytes]; rfl⟩
    case inr.inr.inr.inr =>
      simp only [decode, hd] at h
      cases h
      exact ⟨by simp only [Instr.wf, hb, Bool.not_false], rfl⟩

/-- With an opcode byte there the decoder rejects only a stream shorter than that byte asks for (R60, R61, R64). -/
theorem decode_cons_error_iff (cfg : Config) (op : Byte) (bs : List Byte) :
    (∃ e, decode cfg (op :: bs) = .error e) ↔ (op :: bs).length < opcodeLength cfg op := by
  obtain ⟨-, hd⟩ | ⟨-, hd⟩ | ⟨-, hd⟩ | ⟨-, hd⟩ | ⟨-, hd⟩ := decodeOpcode_cases cfg op
  case inl | inr.inl | inr.inr.inl =>
    cases bs <;> simp [decode, opcodeLength, hd, Handler.format, Format.length]
  case inr.inr.inr.inl =>
    obtain _ | ⟨lo, _ | ⟨hi, bs⟩⟩ := bs <;> simp [decode, opcodeLength, hd, Handler.format, Format.length]
  case inr.inr.inr.inr =>
    simp [decode, opcodeLength, hd, Handler.format, Format.length]

/-- A decoded instruction is as long as its first byte says (R65). -/
theorem length_of_decode {cfg : Config} {op : Byte} {bs rest : List Byte} {i : Instr} (hwf : cfg.wf = true)
    (h : decode cfg (op :: bs) = .ok (i, rest)) : i.length = opcodeLength cfg op := by
  obtain ⟨hi, hbs⟩ := decode_ok h
  cases i <;> obtain ⟨rfl, -⟩ := List.cons_eq_cons.mp hbs
  case jsr => rw [opcodeLength, decodeOpcode_opcJsr hwf]; rfl
  case ldaZp => rw [opcodeLength, decodeOpcode_opcLdaZp hwf]; rfl
  case ldaImm => rw [opcodeLength, decodeOpcode_opcLdaImm]; rfl
  case ldaZpX => rw [opcodeLength, decodeOpcode_opcLdaZpX hwf]; rfl
  case unhandled =>
    rw [opcodeLength, decodeOpcode_of_bound_eq_false (by simpa [Instr.wf] using hi)]
    rfl

end Sys2Proof
end

section
/-! SUPPORT. The statements about the decoder and the encoder (R60 to R68). -/

namespace Sys2Proof.Machine

/-- Settles O4: instruction by instruction; R6 keeps the four handled opcodes apart, and an unhandled one is none of them. -/
theorem decodeOfEncode : Obligations.DecodeOfEncode := by
  intro cfg i rest hcfg hi
  cases i with
  | jsr abs => exact decode_encode_jsr hcfg abs rest
  | ldaZp zp => exact decode_encode_ldaZp hcfg zp rest
  | ldaImm imm => exact decode_encode_ldaImm cfg imm rest
  | ldaZpX zp => exact decode_encode_ldaZpX hcfg zp rest
  | unhandled op => exact decode_encode_unhandled (by simpa [Instr.wf] using hi) rest

/-- Settles O5: the inversion of the decoder. -/
theorem encodeOfDecode : Obligations.EncodeOfDecode := by
  intro cfg bs rest i h
  obtain ⟨hi, hbs⟩ := decode_ok h
  exact ⟨hi, hbs.symm⟩

/-- Settles O6: no byte at all is the one error without an opcode, and with one only the length decides. -/
theorem decodeRejectsOnlyMissingBytes : Obligations.DecodeRejectsOnlyMissingBytes := by
  intro cfg bs
  cases bs with
  | nil => exact ⟨fun _ => .inl rfl, fun _ => ⟨.noOpcode, rfl⟩⟩
  | cons op bs =>
    rw [decode_cons_error_iff]
    constructor
    · exact fun h => .inr ⟨op, bs, rfl, h⟩
    · rintro (h | ⟨_, _, h, hlen⟩)
      · cases h
      · cases h
        exact hlen

/-- Settles O2: each word decodes because it is its instruction's encoding. -/
theorem defaultWordsDecode : Obligations.DefaultWordsDecode := by
  refine ⟨?_, ?_, ?_, ?_⟩
  · exact decode_encode_ldaZp defaultConfig_wf 0x42 []
  · exact decode_encode_ldaZpX defaultConfig_wf 0x80 []
  · exact decode_encode_unhandled (by decide) []
  · exact decode_encode_jsr defaultConfig_wf 0x1234 []

end Sys2Proof.Machine
end

section
/-! SUPPORT. Two bytes written side by side, as every word write leaves them (R43), and memories in canonical form
compared by what they read (R40, R44). -/

namespace Sys2Proof.Machine

theorem Memory.read_write_succ_low (m : Memory) (a : Nat) (lo hi : Byte) :
    ((m.write a lo).write (a + 1) hi).read a = lo := by
  rw [Memory.read_write_ne _ hi (by omega), Memory.read_write_same]

theorem Memory.read_write_succ_high (m : Memory) (a : Nat) (lo hi : Byte) :
    ((m.write a lo).write (a + 1) hi).read (a + 1) = hi := Memory.read_write_same ..

theorem Memory.read_write_succ_ne (m : Memory) {a b : Nat} (lo hi : Byte) (h : b ≠ a) (h' : b ≠ a + 1) :
    ((m.write a lo).write (a + 1) hi).read b = m.read b := by
  rw [Memory.read_write_ne _ hi h', Memory.read_write_ne _ lo h]

theorem Memory.wfFrom_cons {k lo : Nat} {v : Byte} {m : Memory} :
    Memory.wfFrom lo ((k, v) :: m) = true ↔ lo ≤ k ∧ k < memSize ∧ v ≠ unlisted ∧ m.wfFrom (k + 1) = true := by
  simp only [Memory.wfFrom, Bool.and_eq_true, decide_eq_true_eq, bne_iff_ne, and_assoc]

/-- A canonical memory lists nothing below the address it starts from. -/
theorem Memory.read_of_lt_of_wfFrom {m : Memory} {lo a : Nat} (h : m.wfFrom lo = true) (ha : a < lo) :
    m.read a = unlisted := by
  induction m generalizing lo with
  | nil => rfl
  | cons c m ih =>
    obtain ⟨k, v⟩ := c
    obtain ⟨hlo, -, -, hm⟩ := Memory.wfFrom_cons.mp h
    rw [Memory.read_cons, if_neg (by omega), ih hm (by omega)]

/-- A memory that reads a listed byte where a canonical one starts must list that address first too. -/
theorem Memory.head_le_of_read_eq {m n : Memory} {k k' lo : Nat} {v v' : Byte}
    (hm : Memory.wfFrom lo ((k, v) :: m) = true) (hn : Memory.wfFrom lo ((k', v') :: n) = true)
    (h : Memory.read ((k, v) :: m) k = Memory.read ((k', v') :: n) k) : k' ≤ k := by
  obtain ⟨-, -, hv, -⟩ := Memory.wfFrom_cons.mp hm
  obtain ⟨-, hk', hv', hn'⟩ := Memory.wfFrom_cons.mp hn
  by_contra hlt
  have hn'' : Memory.wfFrom k' ((k', v') :: n) = true := Memory.wfFrom_cons.mpr ⟨le_refl k', hk', hv', hn'⟩
  rw [Memory.read_of_lt_of_wfFrom hn'' (not_le.mp hlt), Memory.read_cons, if_pos rfl] at h
  exact hv h

/-- Canonical memories are told apart by what they read. -/
theorem Memory.eq_of_read_eq {m n : Memory} {lo : Nat} (hm : m.wfFrom lo = true) (hn : n.wfFrom lo = true)
    (h : ∀ a, m.read a = n.read a) : m = n := by
  induction m generalizing n lo with
  | nil =>
    cases n with
    | nil => rfl
    | cons c n =>
      obtain ⟨k, v⟩ := c
      obtain ⟨-, -, hv, -⟩ := Memory.wfFrom_cons.mp hn
      exact absurd ((h k).trans (if_pos rfl)).symm hv
  | cons c m ih =>
    obtain ⟨k, v⟩ := c
    cases n with
    | nil =>
      obtain ⟨-, -, hv, -⟩ := Memory.wfFrom_cons.mp hm
      exact absurd ((if_pos rfl).symm.trans (h k)) hv
    | cons c' n =>
      obtain ⟨k', v'⟩ := c'
      obtain rfl : k = k' :=
        le_antisymm (Memory.head_le_of_read_eq hn hm (h k').symm) (Memory.head_le_of_read_eq hm hn (h k))
      obtain ⟨-, -, -, hm'⟩ := Memory.wfFrom_cons.mp hm
      obtain ⟨-, -, -, hn'⟩ := Memory.wfFrom_cons.mp hn
      have hv : v = v' := by simpa only [Memory.read_cons, if_true] using h k
      have htail : ∀ a, Memory.read m a = Memory.read n a := by
        intro a
        by_cases ha : k = a
        · subst ha
          rw [Memory.read_of_lt_of_wfFrom hm' (Nat.lt_succ_self k), Memory.read_of_lt_of_wfFrom hn' (Nat.lt_succ_self k)]
        · simpa only [Memory.read_cons, if_neg ha] using h a
      rw [hv, ih hm' hn' htail]

/-- A word write that completes has left the word's low byte at its address and the high byte at the next (R43, R45). -/
theorem byteAt_of_writeWord_done {p w : Word} {s t : State} (h : writeWord p.toNat w s = .done () t) :
    t.byteAt p = lo8 w ∧ t.byteAt (p + 1) = hi8 w := by
  obtain hlt | heq | hge : p.toNat + 1 < memSize ∨ p.toNat = 65535 ∨ memSize ≤ p.toNat := by
    unfold memSize
    omega
  · rw [writeWord_done w s hlt] at h
    cases h
    have hsucc : (p + 1).toNat = p.toNat + 1 := by
      unfold memSize at hlt
      bv_omega
    rw [State.byteAt, State.byteAt, hsucc]
    exact ⟨Memory.read_write_succ_low .., Memory.read_write_succ_high ..⟩
  · rw [heq, writeWord_top] at h
    cases h
  · exact absurd (word_lt_memSize p) (not_lt.mpr hge)

/-- The two halves of a word at PC fetch as that word (R45, R84). -/
theorem fetchWord_of_bytes {s : State} {w : Word} (hlo : s.byteAt s.pc = lo8 w) (hhi : s.byteAt (s.pc + 1) = hi8 w) :
    fetchWord s = .done w (s.fetched 2) := by
  rw [fetchWord_done, hlo, hhi, joinBytes_lo8_hi8]

end Sys2Proof.Machine
end

section
/-! SUPPORT. The statements about memory and the engine's primitives (R43 to R45, R83, R84). -/

namespace Sys2Proof.Machine

/-- Settles O9: the word write's three cases, by where its second address falls. -/
theorem writeWordIsTwoByteWrites : Obligations.WriteWordIsTwoByteWrites := by
  intro a w s
  rw [← lo8_eq_ofNat, ← hi8_eq_ofNat]
  refine ⟨fun h => ⟨_, writeWord_done w s h, ?_, ?_, fun b hb hb' => ?_⟩, ?_, writeWord_raised w s⟩
  · exact Memory.read_write_succ_low ..
  · exact Memory.read_write_succ_high ..
  · exact Memory.read_write_succ_ne _ _ _ hb hb'
  · rintro rfl
    exact ⟨_, writeWord_top w s, Memory.read_write_same .., fun b hb => Memory.read_write_ne _ _ hb⟩

/-- Settles O10: PC is always a valid address, so the fetch is the read, one byte on and one unit less. -/
theorem fetchByteAdvancesOne : Obligations.FetchByteAdvancesOne := fetchByte_done

/-- Settles O11: two fetches, joined low byte first. -/
theorem fetchWordAdvancesTwo : Obligations.FetchWordAdvancesTwo := by
  intro s
  refine ⟨_, fetchWord_done s, ?_⟩
  rw [toNat_joinBytes, State.byteAt, State.byteAt, BitVec.toNat_add]
  rfl

/-- Settles O13: the fetch joins the bytes at PC and PC + 1, and a completed write has put the word's two halves there. -/
theorem littleEndianForDataAndCode : Obligations.LittleEndianForDataAndCode := by
  refine ⟨fun s => ⟨s.fetched 2, by rw [fetchWord_done, joinBytes_eq_ofNat]⟩, fun p w s t h => ?_⟩
  obtain ⟨hlo, hhi⟩ := byteAt_of_writeWord_done h
  rw [← lo8_eq_ofNat, ← hi8_eq_ofNat]
  exact ⟨hlo, hhi, _, fetchWord_of_bytes (s := { t with pc := p }) hlo hhi⟩

/-- Settles O14: the canonical form lists exactly the bytes that read other than the unlisted one, in order. -/
theorem canonicalMemoriesAreEqual : Obligations.CanonicalMemoriesAreEqual := fun _ _ hm hn h =>
  Memory.eq_of_read_eq hm hn h

end Sys2Proof.Machine
end

section
/-! SUPPORT. The range of the budget's counter (R6, R32, D10), and that a counter wide enough for one instruction's overshoot
holds whatever a run leaves in it (R89). -/

namespace Sys2Proof

/-- A signed counter of `w + 1` bits holds a value from `−2^w` to `2^w − 1`, away from what was put in by a multiple of
`2^(w + 1)`. -/
theorem narrow_signed_range {cfg : Config} {w : Nat} (h : cfg.budget = .signed (w + 1)) (n : Int) :
    -(2 ^ w : Int) ≤ cfg.narrow n ∧ cfg.narrow n < 2 ^ w ∧ (2 ^ (w + 1) : Int) ∣ cfg.narrow n - n := by
  have hpos : 0 < 2 ^ (w + 1) := Nat.two_pow_pos _
  have hlo := Int.le_bmod (x := n) hpos
  have hhi := Int.bmod_lt (x := n) hpos
  have hdvd := Int.dvd_bmod_sub_self (x := n) (m := 2 ^ (w + 1))
  have hpow : (2 ^ (w + 1) : Int) = 2 ^ w * 2 := pow_succ ..
  simp only [Config.narrow, h]
  push_cast at hlo hhi hdvd
  rw [hpow] at hlo hhi
  exact ⟨by omega, by omega, hdvd⟩

theorem narrow_eq_self_iff {cfg : Config} {w : Nat} (h : cfg.budget = .signed (w + 1)) (n : Int) :
    cfg.narrow n = n ↔ -(2 ^ w : Int) ≤ n ∧ n < 2 ^ w := by
  obtain ⟨hlo, hhi, -⟩ := narrow_signed_range h n
  constructor
  · intro he
    rw [he] at hlo hhi
    exact ⟨hlo, hhi⟩
  · rintro ⟨hlo, hhi⟩
    simp only [Config.narrow, h]
    apply Int.bmod_eq_of_le_mul_two <;> push_cast <;> rw [pow_succ] <;> omega

/-- A wide enough counter is the integer, or is signed with room for MAXCOST on either side of zero. -/
theorem Config.budget_of_wide {cfg : Config} (h : cfg.budgetWide = true) :
    cfg.budget = .integer ∨ ∃ w, cfg.budget = .signed (w + 1) ∧ (cfg.maxCost : Int) ≤ 2 ^ w := by
  unfold Config.budgetWide at h
  cases hb : cfg.budget with
  | integer => exact .inl rfl
  | signed width =>
    rw [hb] at h
    have hle : cfg.maxCost ≤ 2 ^ (width - 1) := of_decide_eq_true h
    cases width with
    | zero =>
      rw [Nat.zero_sub, pow_zero, Config.maxCost] at hle
      omega
    | succ w => exact .inr ⟨w, rfl, by exact_mod_cast hle⟩

/-- A wide enough counter that holds `c` holds every value below it down to `1 − MAXCOST`. -/
theorem narrow_eq_self_of_le {cfg : Config} {c n : Int} (hwide : cfg.budgetWide = true) (hc : cfg.narrow c = c)
    (hlo : 1 - (cfg.maxCost : Int) ≤ n) (hn : n ≤ c) : cfg.narrow n = n := by
  obtain hb | ⟨w, hb, hmax⟩ := Config.budget_of_wide hwide
  · exact narrow_integer hb n
  · obtain ⟨-, hhi⟩ := (narrow_eq_self_iff hb c).mp hc
    exact (narrow_eq_self_iff hb n).mpr ⟨by omega, by omega⟩

/-- A wide enough counter holds the budget of a single step. -/
theorem narrow_one {cfg : Config} (hwide : cfg.budgetWide = true) : cfg.narrow 1 = 1 := by
  obtain hb | ⟨w, hb, hmax⟩ := Config.budget_of_wide hwide
  · exact narrow_integer hb 1
  · unfold Config.maxCost at hmax
    exact (narrow_eq_self_iff hb 1).mpr ⟨by omega, by omega⟩

theorem Instr.one_le_cost (cfg : Config) (i : Instr) : 1 ≤ i.cost cfg := by
  cases i <;> simp only [Instr.cost] <;> omega

theorem Instr.cost_le_maxCost (cfg : Config) (i : Instr) : i.cost cfg ≤ cfg.maxCost := by
  cases i <;> simp only [Instr.cost, Config.maxCost] <;> omega

end Sys2Proof
end

section
/-! SUPPORT. What an instruction's effect makes of the engine state, the memory and the outputs: the items the invariant and the
runs speak of. -/

namespace Sys2Proof.Machine

/-- The one effect that raises: JSR's push at the top of memory (R131). -/
def pushFaults (i : Instr) (s : State) : Prop := (∃ abs, i = .jsr abs) ∧ s.sp = 0xFFFF

theorem jsrEffect_faults (abs : Word) {s : State} (h : s.sp = 0xFFFF) :
    jsrEffect abs s = (s.setMem (s.mem.write 65535 (lo8 (returnAddress s)))).takeFault (.outOfRange 65536) := if_pos h

theorem jsrEffect_completes (abs : Word) {s : State} (h : s.sp ≠ 0xFFFF) :
    jsrEffect abs s =
      ((s.setMem ((s.mem.write (pushAddress s) (lo8 (returnAddress s))).write (pushAddress s + 1)
        (hi8 (returnAddress s)))).deduct 2).enterCall abs := if_neg h

/-- What no instruction changes of the engine state and the host's requests. -/
theorem effect_keeps_engine (i : Instr) (s : State) :
    (effect i s).cfg = s.cfg ∧ (effect i s).init = s.init ∧ (effect i s).requests = s.requests := by
  cases i with
  | jsr abs =>
    rw [effect, jsrEffect_frame]
    exact ⟨rfl, rfl, rfl⟩
  | ldaZp zp => exact ⟨rfl, rfl, rfl⟩
  | ldaImm imm => exact ⟨rfl, rfl, rfl⟩
  | ldaZpX zp => exact ⟨rfl, rfl, rfl⟩
  | unhandled op => exact ⟨rfl, rfl, rfl⟩

@[simp] theorem effect_cfg (i : Instr) (s : State) : (effect i s).cfg = s.cfg := (effect_keeps_engine i s).1

@[simp] theorem effect_init (i : Instr) (s : State) : (effect i s).init = s.init := (effect_keeps_engine i s).2.1

@[simp] theorem effect_requests (i : Instr) (s : State) : (effect i s).requests = s.requests :=
  (effect_keeps_engine i s).2.2

/-- An instruction that completes leaves the fault record, the loop state and the replies. -/
theorem effect_completes {i : Instr} {s : State} (h : ¬ pushFaults i s) :
    (effect i s).fault = s.fault ∧ (effect i s).run = s.run ∧ (effect i s).replies = s.replies := by
  cases i with
  | jsr abs =>
    rw [effect, jsrEffect_completes abs fun hsp => h ⟨⟨abs, rfl⟩, hsp⟩]
    exact ⟨rfl, rfl, rfl⟩
  | ldaZp zp => exact ⟨rfl, rfl, rfl⟩
  | ldaImm imm => exact ⟨rfl, rfl, rfl⟩
  | ldaZpX zp => exact ⟨rfl, rfl, rfl⟩
  | unhandled op => exact ⟨rfl, rfl, rfl⟩

/-- A push that faults records OutOfRange(0x10000), ends the run with that error and leaves CYC (R132). -/
theorem effect_faults {i : Instr} {s : State} (h : pushFaults i s) :
    (effect i s).fault = some (.outOfRange 65536) ∧ (effect i s).run = .halted ∧
      (effect i s).replies = s.replies ++ [.ran (.error (.outOfRange 65536)) s.cyc] ∧ (effect i s).cyc = s.cyc := by
  obtain ⟨⟨abs, rfl⟩, hsp⟩ := h
  rw [effect, jsrEffect_faults abs hsp]
  exact ⟨rfl, rfl, rfl, rfl⟩

/-- An instruction that completes costs what the table says, its fetch included (R88). -/
theorem effect_fetched_cyc {i : Instr} {s : State} (h : ¬ pushFaults i (s.fetched i.length)) :
    (effect i (s.fetched i.length)).cyc = s.cfg.narrow (s.cyc - (i.cost s.cfg : Int)) := by
  cases i with
  | jsr abs =>
    rw [effect, jsrEffect_completes abs fun hsp => h ⟨⟨abs, rfl⟩, hsp⟩]
    calc
      s.cfg.narrow (s.cfg.narrow (s.cfg.narrow (s.cyc - (3 : Nat)) - (2 : Nat)) - (s.cfg.jsrExtraCycles : Int))
      _ = s.cfg.narrow (s.cfg.narrow (s.cyc - (3 + 2 : Nat)) - (s.cfg.jsrExtraCycles : Int)) := by
        rw [narrow_sub_sub s.cfg s.cyc]
      _ = s.cfg.narrow (s.cyc - (3 + 2 + s.cfg.jsrExtraCycles : Nat)) := narrow_sub_sub ..
  | ldaZp zp => exact congrArg State.cyc (effect_ldaZp_fetched zp s)
  | ldaImm imm => exact congrArg State.cyc (effect_ldaImm_fetched imm s)
  | ldaZpX zp => exact congrArg State.cyc (effect_ldaZpX_fetched zp s)
  | unhandled op => rfl

end Sys2Proof.Machine
end

section
/-! SUPPORT. The invariant under the instructions and under the host's requests (R33, R80, R89). -/

namespace Sys2Proof.Machine

/-- Every instruction keeps the canonical form of memory. -/
theorem effect_wf (i : Instr) {s : State} (h : s.mem.wf = true) : (effect i s).mem.wf = true := by
  cases i with
  | jsr abs =>
    by_cases hsp : s.sp = 0xFFFF
    · rw [effect, jsrEffect_faults abs hsp]
      exact Memory.wf_write _ h (by decide)
    · rw [effect, jsrEffect_completes abs hsp]
      exact Memory.wf_write _ (Memory.wf_write _ h (word_lt_memSize s.sp)) (pushAddress_succ_lt hsp)
  | ldaZp zp => exact h
  | ldaImm imm => exact h
  | ldaZpX zp => exact h
  | unhandled op => exact h

/-- Every instruction leaves in CYC a value the counter holds. -/
theorem effect_fetched_cyc_held (i : Instr) (s : State) :
    s.cfg.narrow (effect i (s.fetched i.length)).cyc = (effect i (s.fetched i.length)).cyc := by
  by_cases hf : pushFaults i (s.fetched i.length)
  · obtain ⟨-, -, -, hcyc⟩ := effect_faults hf
    rw [hcyc]
    exact narrow_narrow ..
  · rw [effect_fetched_cyc hf, narrow_narrow]

/-- In a state that meets the invariant an instruction of a run does not make the counter wrap (R89). -/
theorem narrow_sub_cost {s : State} (i : Instr) (hinv : s.Inv) (hrun : s.executing) :
    s.cfg.narrow (s.cyc - (i.cost s.cfg : Int)) = s.cyc - (i.cost s.cfg : Int) := by
  obtain ⟨-, hwide, -, hheld, -⟩ := hinv
  obtain ⟨-, -, hcyc⟩ := hrun
  have hcost := i.cost_le_maxCost s.cfg
  exact narrow_eq_self_of_le hwide hheld (by omega) (by omega)

/-- An executed instruction keeps the invariant: where the run goes on the instruction completed, at a cost between 1 and
MAXCOST. -/
theorem effect_keeps_inv (i : Instr) {s : State} (hinv : s.Inv) (hrun : s.executing) :
    (effect i (s.fetched i.length)).Inv := by
  obtain ⟨hwf, hwide, hmem, hheld, hgood⟩ := id hinv
  refine ⟨by rwa [effect_cfg], by rwa [effect_cfg], effect_wf i hmem, ?_, fun _ hr => ?_⟩
  · rw [effect_cfg]
    exact effect_fetched_cyc_held i s
  by_cases hf : pushFaults i (s.fetched i.length)
  · obtain ⟨-, hhalted, -⟩ := effect_faults hf
    rw [hhalted] at hr
    cases hr
  · obtain ⟨hfault, -⟩ := effect_completes hf
    obtain ⟨hinit, hrunning, hcyc⟩ := hrun
    have hcost := i.cost_le_maxCost s.cfg
    rw [effect_cfg, effect_fetched_cyc hf, narrow_sub_cost i hinv ⟨hinit, hrunning, hcyc⟩, hfault]
    exact ⟨(hgood hinit hrunning).1, by rw [State.fetched_cfg]; omega⟩

/-- A request other than reset and run leaves the engine state. -/
theorem serveInit_keeps_engine {s : State} {r : HostRequest} (hreset : r ≠ .reset) (hrun : ∀ b, r ≠ .run b) :
    (s.serveInit r).run = s.run ∧ (s.serveInit r).cyc = s.cyc ∧ (s.serveInit r).fault = s.fault ∧
      (s.serveInit r).init = s.init := by
  cases r with
  | reset => exact absurd rfl hreset
  | loadByte a v =>
    by_cases h : a < memSize
    · simp [State.serveInit, hostLoad_done s v h]
    · simp [State.serveInit, hostLoad_raised s v (not_lt.mp h)]
  | readByte a =>
    by_cases h : a < memSize
    · simp [State.serveInit, hostRead_done s h]
    · simp [State.serveInit, hostRead_raised s (not_lt.mp h)]
  | writeByteReg r v => cases r <;> exact ⟨rfl, rfl, rfl, rfl⟩
  | writeWordReg r v => cases r <;> exact ⟨rfl, rfl, rfl, rfl⟩
  | writeFlag f v => cases f <;> exact ⟨rfl, rfl, rfl, rfl⟩
  | readByteReg r => exact ⟨rfl, rfl, rfl, rfl⟩
  | readWordReg r => exact ⟨rfl, rfl, rfl, rfl⟩
  | readFlag f => exact ⟨rfl, rfl, rfl, rfl⟩
  | run budget => exact absurd rfl (hrun budget)

/-- What a run request leaves: CYC loaded, FAULT and INIT as they were. -/
theorem startRun_engine (s : State) (budget : Int) :
    (s.startRun budget).cyc = s.cfg.narrow budget ∧ (s.startRun budget).fault = s.fault ∧
      (s.startRun budget).init = s.init := by
  rw [startRun_frame]
  exact ⟨rfl, rfl, rfl⟩

/-- A run request leads from Halted to Running exactly when no fault is recorded and the loaded budget is positive (R80, R82). -/
theorem startRun_running_iff {s : State} (h : s.run = .halted) (budget : Int) :
    (s.startRun budget).run = .running ↔ s.fault = none ∧ 0 < s.cfg.narrow budget := by
  obtain hf | ⟨f, hf⟩ := Option.eq_none_or_eq_some s.fault
  · by_cases hb : 0 < s.cfg.narrow budget
    · rw [startRun_starts hf hb]
      exact ⟨fun _ => ⟨hf, hb⟩, fun _ => rfl⟩
    · rw [startRun_ends hf (not_lt.mp hb)]
      exact ⟨fun hr => (by cases hr), fun ⟨_, hb'⟩ => absurd hb' hb⟩
  · rw [startRun_faulted budget hf, State.reply_run, State.loadBudget_run, h, hf]
    exact ⟨fun hr => (by cases hr), fun ⟨hn, _⟩ => (by cases hn)⟩

/-- A request served while no run is in progress keeps the invariant. -/
theorem serveInit_keeps_inv {s : State} {r : HostRequest} (hinv : s.Inv) (hidle : ¬ (s.init = true ∧ s.run = .running))
    (hr : r = .reset ∨ s.init = true) : (s.serveInit r).Inv := by
  obtain ⟨hwf, hwide, hmem, hheld, -⟩ := hinv
  obtain ⟨hcfg, -, -⟩ := serveInit_frame s r
  by_cases hreset : r = .reset
  · subst hreset
    exact ⟨hwf, hwide, rfl, hheld, fun _ hrunning => (by cases hrunning)⟩
  have hinit := hr.resolve_left hreset
  refine ⟨by rwa [hcfg], by rwa [hcfg], serveInit_wf r hmem, ?_⟩
  rw [hcfg]
  by_cases hrun : ∃ b, r = .run b
  · obtain ⟨b, rfl⟩ := hrun
    obtain ⟨hcyc, hfault, -⟩ := startRun_engine s b
    rw [State.serveInit, hcyc, hfault]
    refine ⟨narrow_narrow .., fun _ hrunning => ?_⟩
    obtain ⟨hnone, hpos⟩ := (startRun_running_iff (run_eq_halted fun h => hidle ⟨hinit, h⟩) b).mp hrunning
    have hmax : 5 ≤ s.cfg.maxCost := Nat.le_add_right ..
    exact ⟨hnone, by omega⟩
  · obtain ⟨hrun', hcyc, -, hinit'⟩ := serveInit_keeps_engine (s := s) hreset (not_exists.mp hrun)
    rw [hcyc, hrun', hinit']
    exact ⟨hheld, fun hi hr' => absurd ⟨hi, hr'⟩ hidle⟩

/-- Every step keeps the invariant. -/
theorem step_keeps_inv {s t : State} (hinv : s.Inv) (h : step s = .next t) : t.Inv := by
  obtain ⟨-, -, -, rfl⟩ | ⟨hrun, i, _, _, he⟩ | ⟨-, -, rfl⟩ | ⟨hidle, r, rest, -, hr, rfl⟩ := step_next_cases h
  · obtain ⟨hwf, hwide, hmem, hheld, -⟩ := hinv
    exact ⟨hwf, hwide, hmem, hheld, fun _ hrunning => (by cases hrunning)⟩
  · rw [eq_effect_of_exec he]
    exact effect_keeps_inv i hinv hrun
  · exact hinv
  · exact serveInit_keeps_inv (s := { s with requests := rest }) hinv hidle hr

end Sys2Proof.Machine
end

section
/-! SUPPORT. The statements about the invariant and the budget's counter. -/

namespace Sys2Proof.Machine

/-- Settles O56: by the cases of a step; a run's end, an executed instruction and a served request each keep the invariant. -/
theorem stepKeepsInvariant : Obligations.StepKeepsInvariant := fun _ _ => step_keeps_inv

/-- Settles O55: the reset state's parameters are the defaults, its memory is empty and it is Halted. -/
theorem resetMeetsInvariant : Obligations.ResetMeetsInvariant :=
  ⟨defaultConfig_wf, rfl, Memory.wf_nil, narrow_integer rfl 0, fun _ hrunning => (by cases hrunning)⟩

/-- Settles O58: the residue a signed counter keeps lies in its range, and the invariant bounds what a run can leave in it. -/
theorem budgetCounterRange : Obligations.BudgetCounterRange := by
  refine ⟨fun cfg n h => narrow_integer h n, fun cfg w n h => ?_, fun s i => narrow_sub_cost i⟩
  obtain ⟨hlo, hhi, hdvd⟩ := narrow_signed_range h n
  exact ⟨hlo, hhi, hdvd, narrow_eq_self_iff h n⟩

end Sys2Proof.Machine
end

section
/-! SUPPORT. Which bytes JSR can write, and that no step stops after the first reset (R46, R92, R120, R131). -/

namespace Sys2Proof.Machine

/-- JSR writes at most the two bytes at the address it pushes to (R46, R120). -/
theorem jsrEffect_read_of_outside (abs : Word) (s : State) {b : Nat} (hb : b < pushAddress s ∨ pushAddress s + 2 ≤ b) :
    (jsrEffect abs s).mem.read b = s.mem.read b := by
  by_cases hsp : s.sp = 0xFFFF
  · rw [jsrEffect_faults abs hsp]
    rw [pushAddress_top hsp] at hb
    exact Memory.read_write_ne _ _ (by omega)
  · rw [jsrEffect_completes abs hsp]
    exact Memory.read_write_succ_ne _ _ _ (by omega) (by omega)

/-- After the first reset every step answers a next state: a pass ends the run or executes, and no request is refused. -/
theorem step_next_of_init {s : State} (h : s.init = true) : ∃ t, step s = .next t := by
  by_cases hrun : s.run = .running
  · rw [step_running h hrun]
    by_cases hc : s.cyc ≤ 0
    · exact ⟨_, iteration_ends hc⟩
    · obtain ⟨i, _, -, hi⟩ := iteration_executes (not_le.mp hc)
      exact ⟨_, hi.trans (exec_eq_effect i _)⟩
  · rw [step_host fun hr => hrun hr.2]
    cases hq : s.requests with
    | nil => exact ⟨s, hostTurn_idle hq⟩
    | cons r rest => exact ⟨_, hostTurn_serves hq (.inr h)⟩

end Sys2Proof.Machine
end

section
/-! SUPPORT. The statements about what each instruction does from where its bytes are fetched (R87, R103 to R106, R120,
R131, R132), and about what it leaves unchanged. -/

namespace Sys2Proof.Machine

/-- Settles O15: the load's effect is `loadA` of the operand, field by field. -/
theorem ldaImmediateLoadsOperand : Obligations.LdaImmediateLoadsOperand := by
  intro imm s
  rw [exec_eq_effect, effect, State.loadA_eq]

/-- Settles O16: the read's one unit is taken before A is written. -/
theorem ldaZeroPageLoadsByte : Obligations.LdaZeroPageLoadsByte := by
  intro zp s
  rw [exec_eq_effect, effect, State.loadA_eq]
  rfl

/-- Settles O17: the index addition and the read take one unit each before A is written. -/
theorem ldaZeroPageXLoadsByte : Obligations.LdaZeroPageXLoadsByte := by
  rintro zp s _ rfl
  rw [exec_eq_effect, effect, State.loadA_eq]
  rfl

/-- Settles O18: below the top both pushed bytes land, and the call is entered. -/
theorem jsrPushesAndJumps : Obligations.JsrPushesAndJumps := by
  intro abs s hsp
  rw [← lo8_eq_ofNat, ← hi8_eq_ofNat]
  refine ⟨_, ?_, Memory.read_write_succ_low _ (pushAddress s) _ _, Memory.read_write_succ_high ..,
    fun b hb hb' => Memory.read_write_succ_ne _ _ _ hb hb'⟩
  rw [exec_eq_effect, effect, jsrEffect_completes abs hsp]
  rw [← narrow_sub s.cfg (s.cyc - 2)]
  rfl

/-- Settles O19: the low byte lands, the high byte's address does not exist, and the fault is taken. -/
theorem jsrFaultsAtTopOfMemory : Obligations.JsrFaultsAtTopOfMemory := by
  intro abs s hsp
  rw [← lo8_eq_ofNat]
  refine ⟨_, ?_, Memory.read_write_same .., fun b hb => Memory.read_write_ne _ _ hb⟩
  rw [exec_eq_effect, effect, jsrEffect_faults abs hsp]
  rfl

/-- Settles O20: the effect is the emitted report. -/
theorem unhandledOnlyReports : Obligations.UnhandledOnlyReports := fun op s => exec_eq_effect (.unhandled op) s

/-- Settles O29: every load's effect is one `loadA`, after a deduction. -/
theorem loadFrame : Obligations.LoadFrame := by
  intro i s t hload h
  obtain rfl := eq_effect_of_exec h
  obtain ⟨c, v, he⟩ := effect_of_load hload s
  have hold : ∀ old : Byte, exec i { s with a := old } = .next (effect i s) := fun old => by
    rw [exec_eq_effect, effect_setA_of_load hload]
  rw [he] at hold ⊢
  exact ⟨rfl, rfl, rfl, rfl, rfl, rfl, rfl, rfl, rfl, rfl, rfl, rfl, rfl, rfl, rfl, fun _ => rfl, hold⟩

/-- Settles O30: JSR's frame, and of memory and the engine state what its two cases leave. -/
theorem jsrFrame : Obligations.JsrFrame := by
  intro abs s t h
  obtain rfl := eq_effect_of_exec h
  have hcompletes : s.sp ≠ 0xFFFF → ¬ pushFaults (.jsr abs) s := fun hsp hf => hsp hf.2
  have hmem : ∀ a, pushAddress s = a → ∀ b, b < a ∨ a + 2 ≤ b → (effect (.jsr abs) s).mem.read b = s.mem.read b := by
    rintro _ rfl b hb
    exact jsrEffect_read_of_outside abs s hb
  refine ⟨?_, ?_, ?_, ?_, ?_, ?_, ?_, ?_, ?_, ?_, ?_, ?_, ?_, ?_, fun hsp => effect_completes (hcompletes hsp), hmem⟩
  all_goals rw [effect, jsrEffect_frame]

/-- Settles O31: the effect is the emitted report, which is no other field. -/
theorem unhandledFrame : Obligations.UnhandledFrame := by
  intro op s t h
  obtain rfl := eq_effect_of_exec h
  exact ⟨rfl, rfl, rfl, rfl, rfl, rfl, rfl, rfl, rfl, rfl, rfl, rfl, rfl, rfl, rfl, rfl, rfl, rfl, rfl, fun _ => rfl⟩

/-- Settles O37: a fetch never raises, of the effects only the push at the top does, and the host gets its own error. -/
theorem onlyJsrPushFaults : Obligations.OnlyJsrPushFaults := by
  refine ⟨fun s => ?_, fun i s t h => ?_, fun s a v ha => hostLoad_raised s v ha⟩
  · obtain ⟨i, _, -, hf⟩ := fetchInstr_done s
    exact ⟨i, _, hf⟩
  · obtain rfl := eq_effect_of_exec h
    exact ⟨fun hf => (effect_faults hf).1, fun hf => (effect_completes hf).1⟩

/-- Settles O38: the effect of each instruction, and the cases of a step after reset. -/
theorem noStepStopsAfterReset : Obligations.NoStepStopsAfterReset :=
  ⟨fun i s => ⟨effect i s, exec_eq_effect i s⟩, fun _ => step_next_of_init⟩

end Sys2Proof.Machine
end

section
/-! SUPPORT. One step of a run from the bytes at PC: which instruction they are, and what its effect comes to with the fetch
included (R81, R86 to R88). -/

namespace Sys2Proof.Machine

/-- While a run is executing, the step is `exec` of the decoded instruction once its bytes are fetched. -/
theorem step_eq_exec {s : State} {i : Instr} {rest : List Byte} (hrun : s.executing)
    (hd : decode s.cfg s.window = .ok (i, rest)) : step s = exec i (s.fetched i.length) := by
  rw [step_eq_effect hrun hd, exec_eq_effect]

theorem window_cons (s : State) : s.window = s.byteAt s.pc :: [s.byteAt (s.pc + 1), s.byteAt (s.pc + 2)] := rfl

/-- A byte bound to no handler at PC is the unhandled instruction (R64). -/
theorem decode_window_unhandled {s : State} (h : s.cfg.bound (s.byteAt s.pc) = false) :
    decode s.cfg s.window = .ok (.unhandled (s.byteAt s.pc), [s.byteAt (s.pc + 1), s.byteAt (s.pc + 2)]) :=
  decode_encode_unhandled h _

/-- JSR's opcode and two operand bytes at PC are the call of the word they join to (R62, R63). -/
theorem decode_window_jsr {s : State} (hwf : s.cfg.wf = true) (h : s.byteAt s.pc = 0x20) :
    decode s.cfg s.window = .ok (.jsr (joinBytes (s.byteAt (s.pc + 1)) (s.byteAt (s.pc + 2))), []) := by
  have he := decode_encode_jsr hwf (joinBytes (s.byteAt (s.pc + 1)) (s.byteAt (s.pc + 2))) []
  rw [encode, lo8_joinBytes, hi8_joinBytes] at he
  rw [window_cons, h]
  exact he

/-- Only JSR sets PC to anything but the byte after the instruction (R65). -/
theorem effect_pc_of_not_jsr {i : Instr} (h : ∀ abs, i ≠ .jsr abs) (s : State) : (effect i s).pc = s.pc := by
  cases i with
  | jsr abs => exact absurd rfl (h abs)
  | ldaZp zp => rfl
  | ldaImm imm => rfl
  | ldaZpX zp => rfl
  | unhandled op => rfl

/-- A report names the address the unhandled opcode was fetched from (R133). -/
theorem effect_unhandled_fetched (op : Byte) (s : State) :
    effect (.unhandled op) (s.fetched 1) = (s.fetched 1).emit { op := op, addr := s.pc } := by
  rw [effect, State.fetched_pc, show s.pc + BitVec.ofNat 16 1 - 1 = s.pc by bv_omega]

/-- The address of JSR's last byte is two past its opcode (R121). -/
theorem fetched_three_pc_pred (s : State) : (s.fetched 3).pc - 1 = s.pc + 2 := by
  rw [State.fetched_pc]
  bv_omega

/-- The push's two units and the extra cost come on top of the three fetches (R88). -/
theorem fetched_three_cyc (s : State) (extra : Nat) :
    s.cfg.narrow ((s.fetched 3).cyc - 2 - (extra : Int)) = s.cfg.narrow (s.cyc - 5 - (extra : Int)) := by
  rw [State.fetched_cyc, Int.sub_sub _ 2, narrow_sub]
  congr 1
  omega

/-- The three placed bytes are what the step after the placing reads. -/
theorem withFetchWord_window (s : State) (nbits w : Nat) : (s.withFetchWord nbits w).window = tableBytes nbits w :=
  window_place s ..

theorem withFetchWord_executing (s : State) (nbits w : Nat) : (s.withFetchWord nbits w).executing := by
  refine ⟨rfl, rfl, ?_⟩
  rw [State.withFetchWord, State.inRun_cyc]
  split
  · assumption
  · exact Int.one_pos

end Sys2Proof.Machine
end

section
/-! SUPPORT. The statements about one step of a run (R65, R81, R87, R88, R120). -/

namespace Sys2Proof.Machine

/-- Settles O7: R63's opcodes and R64's default give the lengths; a decoded instruction has its first byte's length, and only
JSR, whose first byte is 0x20, leaves PC elsewhere than past it. -/
theorem lengthFromOpcodeAlone : Obligations.LengthFromOpcodeAlone := by
  refine ⟨fun cfg hwf => ⟨?_, ?_, ?_, ?_, fun op hjsr himm hzp hzpX => ?_⟩, fun s hrun hwf hop => ?_⟩
  · exact congrArg (fun h => h.format.length) (decodeOpcode_opcJsr hwf)
  · exact congrArg (fun h => h.format.length) (decodeOpcode_opcLdaImm cfg)
  · exact congrArg (fun h => h.format.length) (decodeOpcode_opcLdaZp hwf)
  · exact congrArg (fun h => h.format.length) (decodeOpcode_opcLdaZpX hwf)
  · exact congrArg (fun h => h.format.length) (decodeOpcode_unbound himm hzp hzpX hjsr)
  · obtain ⟨i, rest, hd⟩ := window_decodes s
    have hnot : ∀ abs, i ≠ .jsr abs := by
      rintro abs rfl
      obtain ⟨-, hbytes⟩ := decode_ok hd
      exact hop (List.cons_eq_cons.mp hbytes).1
    refine ⟨_, step_eq_effect hrun hd, ?_⟩
    rw [effect_pc_of_not_jsr hnot, State.fetched_pc, length_of_decode hwf hd]

/-- Settles O21: the window always decodes, and the fetch leaves PC past the instruction. -/
theorem stepRunsDecodedInstruction : Obligations.StepRunsDecodedInstruction :=
  ⟨window_decodes, fun _ _ _ hrun hd => step_eq_exec hrun hd⟩

/-- Settles O22: the placed bytes are the window the step fetches from. -/
theorem placedWordIsRun : Obligations.PlacedWordIsRun := by
  intro s nbits w i hcfg h
  have hd : ∃ rest, decode defaultConfig (tableBytes nbits w) = .ok (i, rest) := by
    unfold decodeTableWord at h
    split at h
    · next he =>
      cases h
      exact ⟨_, he⟩
    · cases h
  obtain ⟨rest, hd⟩ := hd
  refine step_eq_exec (rest := rest) (withFetchWord_executing s nbits w) ?_
  rw [withFetchWord_window, show (s.withFetchWord nbits w).cfg = defaultConfig from hcfg, hd]

/-- Settles O26: the operand's two bytes join to the target, and the rest is what JSR does from there at each SP. -/
theorem stepJsr : Obligations.StepJsr := by
  rintro s _ _ hrun hwf hop rfl rfl
  have hstep := step_eq_exec hrun (decode_window_jsr hwf hop)
  rw [joinBytes_eq_ofNat] at hstep
  by_cases hsp : s.sp = 0xFFFF
  · obtain ⟨m, he, hlo, hrest⟩ := jsrFaultsAtTopOfMemory _ (s.fetched 3) hsp
    rw [fetched_three_pc_pred] at hlo
    refine ⟨m, ?_, fun h => absurd hsp h, fun _ => ⟨hstep.trans he, hrest⟩⟩
    rw [hsp]
    exact hlo
  · obtain ⟨m, he, hlo, hhi, hrest⟩ := jsrPushesAndJumps _ (s.fetched 3) hsp
    rw [fetched_three_pc_pred] at hlo hhi
    refine ⟨m, hlo, fun _ => ⟨?_, hhi, hrest⟩, fun h => absurd h hsp⟩
    rw [← fetched_three_cyc]
    exact hstep.trans he

/-- Settles O27: the unbound byte decodes to the unhandled instruction, whose effect is one report. -/
theorem stepUnhandled : Obligations.StepUnhandled := by
  rintro s _ hrun rfl hb
  rw [step_eq_effect hrun (decode_window_unhandled hb)]
  exact congrArg _ (effect_unhandled_fetched _ s)

/-- Settles O28: the step is the decoded instruction's effect, and an instruction that completes costs what the table says. -/
theorem stepCostTable : Obligations.StepCostTable := by
  intro s t i rest hrun hd h hsp
  rw [step_eq_effect hrun hd] at h
  cases h
  exact ⟨effect_fetched_cyc fun ⟨hjsr, htop⟩ => hsp hjsr htop, i.one_le_cost s.cfg, i.cost_le_maxCost s.cfg⟩

end Sys2Proof.Machine
end

section
/-! SUPPORT. Rules about every step: what no instruction looks at, and what no step changes (R6, R28, R33, R35, R156). -/

namespace Sys2Proof.Machine

@[simp] theorem jsrEffect_flagC (abs : Word) (s : State) : (jsrEffect abs s).flagC = s.flagC := by
  rw [jsrEffect_frame]

@[simp] theorem jsrEffect_flagI (abs : Word) (s : State) : (jsrEffect abs s).flagI = s.flagI := by
  rw [jsrEffect_frame]

@[simp] theorem jsrEffect_flagD (abs : Word) (s : State) : (jsrEffect abs s).flagD = s.flagD := by
  rw [jsrEffect_frame]

@[simp] theorem jsrEffect_flagB (abs : Word) (s : State) : (jsrEffect abs s).flagB = s.flagB := by
  rw [jsrEffect_frame]

@[simp] theorem jsrEffect_flagV (abs : Word) (s : State) : (jsrEffect abs s).flagV = s.flagV := by
  rw [jsrEffect_frame]

@[simp] theorem jsrEffect_requests (abs : Word) (s : State) : (jsrEffect abs s).requests = s.requests := by
  rw [jsrEffect_frame]

/-- JSR looks neither at the five inert flags nor at the host's requests. -/
theorem jsrEffect_setUnread (abs : Word) (s : State) (c j d b v : Bool) (q : List HostRequest) :
    jsrEffect abs { s with flagC := c, flagI := j, flagD := d, flagB := b, flagV := v, requests := q } =
      { jsrEffect abs s with flagC := c, flagI := j, flagD := d, flagB := b, flagV := v, requests := q } := by
  by_cases h : s.sp = 0xFFFF
  · simp only [jsrEffect, if_pos h]
    rfl
  · simp only [jsrEffect, if_neg h]
    rfl

/-- No instruction looks at the five inert flags (R28). -/
theorem effect_setInert (i : Instr) (s : State) (c j d b v : Bool) :
    effect i { s with flagC := c, flagI := j, flagD := d, flagB := b, flagV := v } =
      { effect i s with flagC := c, flagI := j, flagD := d, flagB := b, flagV := v } := by
  cases i with
  | jsr abs => simpa [effect] using jsrEffect_setUnread abs s c j d b v s.requests
  | ldaZp zp => rfl
  | ldaImm imm => rfl
  | ldaZpX zp => rfl
  | unhandled op => rfl

/-- No instruction looks at the host's requests (R156). -/
theorem effect_setRequests (i : Instr) (s : State) (q : List HostRequest) :
    effect i { s with requests := q } = { effect i s with requests := q } := by
  cases i with
  | jsr abs => simpa [effect] using jsrEffect_setUnread abs s s.flagC s.flagI s.flagD s.flagB s.flagV q
  | ldaZp zp => rfl
  | ldaImm imm => rfl
  | ldaZpX zp => rfl
  | unhandled op => rfl

/-- No instruction writes the five inert flags (R28). -/
theorem effect_keeps_inert (i : Instr) (s : State) :
    (effect i s).flagC = s.flagC ∧ (effect i s).flagI = s.flagI ∧ (effect i s).flagD = s.flagD ∧
      (effect i s).flagB = s.flagB ∧ (effect i s).flagV = s.flagV := by
  cases i with
  | jsr abs => simp [effect]
  | ldaZp zp => exact ⟨rfl, rfl, rfl, rfl, rfl⟩
  | ldaImm imm => exact ⟨rfl, rfl, rfl, rfl, rfl⟩
  | ldaZpX zp => exact ⟨rfl, rfl, rfl, rfl, rfl⟩
  | unhandled op => exact ⟨rfl, rfl, rfl, rfl, rfl⟩

/-- Only an unhandled opcode reports (R35). -/
theorem effect_reports_of_handled {i : Instr} (h : ∀ op, i ≠ .unhandled op) (s : State) :
    (effect i s).reports = s.reports := by
  cases i with
  | jsr abs => rw [effect, jsrEffect_frame]
  | ldaZp zp => rfl
  | ldaImm imm => rfl
  | ldaZpX zp => rfl
  | unhandled op => exact absurd rfl (h op)

/-- Where the byte at PC decodes to an unhandled instruction it is bound to no handler. -/
theorem bound_of_decode_unhandled {s : State} {op : Byte} {rest : List Byte}
    (h : decode s.cfg s.window = .ok (.unhandled op, rest)) : s.cfg.bound (s.byteAt s.pc) = false := by
  obtain ⟨hwf, hbytes⟩ := decode_ok h
  rw [(List.cons_eq_cons.mp hbytes).1]
  simpa [Instr.wf] using hwf

/-- A request other than reset leaves the fault record (R33). -/
theorem serveInit_fault {s : State} {r : HostRequest} (h : r ≠ .reset) : (s.serveInit r).fault = s.fault := by
  by_cases hrun : ∃ b, r = .run b
  · obtain ⟨b, rfl⟩ := hrun
    exact (startRun_engine s b).2.1
  · obtain ⟨-, -, hfault, -⟩ := serveInit_keeps_engine h (not_exists.mp hrun)
    exact hfault

theorem step_keeps_cfg {s t : State} (h : step s = .next t) : t.cfg = s.cfg := by
  obtain ⟨-, -, -, rfl⟩ | ⟨-, i, _, -, he⟩ | ⟨-, -, rfl⟩ | ⟨-, r, rest, -, -, rfl⟩ := step_next_cases h
  · rfl
  · rw [eq_effect_of_exec he, effect_cfg, State.fetched_cfg]
  · rfl
  · exact (serveInit_frame _ r).1

end Sys2Proof.Machine
end

section
/-! SUPPORT. The statements about every step. -/

namespace Sys2Proof.Machine

/-- Settles O35: the window, the test of the budget and the instruction's effect do not look at the five flags. -/
theorem inertFlagsAreInert : Obligations.InertFlagsAreInert := by
  intro s t c j d b v hrun h
  obtain ⟨i, rest, hd⟩ := window_decodes s
  rw [step_eq_effect hrun hd] at h
  cases h
  obtain ⟨hflagC, hflagI, hflagD, hflagB, hflagV⟩ := effect_keeps_inert i (s.fetched i.length)
  refine ⟨hflagC, hflagI, hflagD, hflagB, hflagV, ?_⟩
  exact (step_eq_effect (s := { s with flagC := c, flagI := j, flagD := d, flagB := b, flagV := v }) hrun hd).trans
    (congrArg _ (effect_setInert i (s.fetched i.length) c j d b v))

/-- Settles O39: with a fault recorded the invariant excludes a run, and of the requests only reset changes the record. -/
theorem faultIsClearedOnlyByReset : Obligations.FaultIsClearedOnlyByReset := by
  intro s t f hinv hinit hf h
  obtain ⟨-, -, -, -, hgood⟩ := hinv
  have hidle : s.run ≠ .running := fun hr => by
    rw [(hgood hinit hr).1] at hf
    cases hf
  obtain ⟨-, hr, -⟩ | ⟨⟨-, hr, -⟩, -⟩ | ⟨-, -, rfl⟩ | ⟨-, r, rest, hq, -, rfl⟩ := step_next_cases h
  · exact absurd hr hidle
  · exact absurd hr hidle
  · exact .inl hf
  · by_cases hreset : r = .reset
    · subst hreset
      exact .inr ⟨rfl, rest, hq⟩
    · exact .inl ((serveInit_fault hreset).trans hf)

/-- Settles O40: an unbound byte and nothing else decodes to the unhandled instruction; no other case of a step reports. -/
theorem reportsAppendOnlyUnhandled : Obligations.ReportsAppendOnlyUnhandled := by
  intro s t h
  refine ⟨fun ⟨hrun, hb⟩ => ?_, fun hno => ?_⟩
  · rw [stepUnhandled s _ hrun rfl hb] at h
    cases h
    rfl
  · obtain ⟨-, -, -, rfl⟩ | ⟨hrun, i, _, hd, he⟩ | ⟨-, -, rfl⟩ | ⟨-, r, rest, -, -, rfl⟩ := step_next_cases h
    · rfl
    · rw [eq_effect_of_exec he, effect_reports_of_handled, State.fetched_reports]
      rintro op rfl
      exact hno ⟨hrun, bound_of_decode_unhandled hd⟩
    · rfl
    · exact (serveInit_frame _ r).2.2

/-- Settles O41: neither the pass that ends a run nor an instruction looks at the requests. -/
theorem hostHasNoMoveDuringRun : Obligations.HostHasNoMoveDuringRun := by
  intro s t q hinit hrun h
  by_cases hc : s.cyc ≤ 0
  · rw [step_running hinit hrun, iteration_ends hc] at h
    cases h
    exact ⟨rfl, (step_running (s := { s with requests := q }) hinit hrun).trans (iteration_ends hc)⟩
  · obtain ⟨i, rest, hd⟩ := window_decodes s
    have hexec : s.executing := ⟨hinit, hrun, not_le.mp hc⟩
    rw [step_eq_effect hexec hd] at h
    cases h
    exact ⟨effect_requests .., (step_eq_effect (s := { s with requests := q }) hexec hd).trans
      (congrArg _ (effect_setRequests i (s.fetched i.length) q))⟩

/-- Settles O42: by the cases of a step. -/
theorem parametersNeverChange : Obligations.ParametersNeverChange := fun _ _ => step_keeps_cfg

end Sys2Proof.Machine
end

section
/-! SUPPORT. Runs: how one starts, what each of its steps spends, and how it ends (R80 to R82, R89, R90, R143, R144, R160). -/

namespace Sys2Proof.Machine

/-- While no run is in progress a step serves the request at the head of the list (R156). -/
theorem step_serves {s : State} {r : HostRequest} {rest : List HostRequest}
    (hidle : ¬ (s.init = true ∧ s.run = .running)) (hq : s.requests = r :: rest) (hr : r = .reset ∨ s.init = true) :
    step s = .next ({ s with requests := rest }.serveInit r) := by
  rw [step_host hidle, hostTurn_serves hq hr]

theorem not_running_of_halted {s : State} (h : s.run = .halted) : ¬ (s.init = true ∧ s.run = .running) := by
  rintro ⟨-, hr⟩
  rw [h] at hr
  cases hr

/-- After the first reset and between runs, every request is served. -/
theorem step_serves_halted {s : State} {r : HostRequest} {rest : List HostRequest} (hinit : s.init = true)
    (hhalted : s.run = .halted) (hq : s.requests = r :: rest) :
    step s = .next ({ s with requests := rest }.serveInit r) :=
  step_serves (not_running_of_halted hhalted) hq (.inr hinit)

/-- A pass that finds no budget left ends the run (R82, R94). -/
theorem step_ends {s : State} (hinit : s.init = true) (hrun : s.run = .running) (hc : s.cyc ≤ 0) :
    step s = .next (s.endRun .halted) := by
  rw [step_running hinit hrun, iteration_ends hc]

/-- A residue's non-negative predecessors are residues too. -/
theorem bmod_eq_self_of_nonneg_of_le {c n : Int} {m : Nat} (hm : 0 < m) (hc : c.bmod m = c) (h0 : 0 ≤ n) (hn : n ≤ c) :
    n.bmod m = n := by
  have hlt := Int.bmod_lt (x := c) hm
  exact Int.bmod_eq_of_le (by omega) (by omega)

/-- A counter that holds `c` holds every value from zero up to it. -/
theorem narrow_eq_self_of_nonneg_of_le {cfg : Config} {c n : Int} (hc : cfg.narrow c = c) (h0 : 0 ≤ n) (hn : n ≤ c) :
    cfg.narrow n = n := by
  unfold Config.narrow at hc ⊢
  cases hb : cfg.budget with
  | integer => rfl
  | signed width =>
    rw [hb] at hc
    exact bmod_eq_self_of_nonneg_of_le (Nat.two_pow_pos width) hc h0 hn

/-- The instruction that a budget of 1 admits leaves no budget, whether it completes or faults (R143). -/
theorem effect_fetched_cyc_nonpos (i : Instr) {s : State} (hwide : s.cfg.budgetWide = true) (h : s.cyc = 1) :
    (effect i (s.fetched i.length)).cyc ≤ 0 := by
  have hone : s.cfg.narrow s.cyc = s.cyc := by rw [h, narrow_one hwide]
  by_cases hf : pushFaults i (s.fetched i.length)
  · obtain ⟨-, -, -, hcyc⟩ := effect_faults hf
    obtain ⟨⟨abs, rfl⟩, -⟩ := hf
    have hlen : (Instr.jsr abs).length = 3 := rfl
    have hmax : 5 ≤ s.cfg.maxCost := Nat.le_add_right ..
    rw [hcyc, State.fetched_cyc, hlen, narrow_eq_self_of_le hwide hone (by omega) (by omega)]
    omega
  · have hlo := i.one_le_cost s.cfg
    have hhi := i.cost_le_maxCost s.cfg
    rw [effect_fetched_cyc hf, narrow_eq_self_of_le hwide hone (by omega) (by omega)]
    omega

/-- At most `n` steps of a run end it: the host has the result with CYC, and the end is the budget's, overshot by less than one
instruction, or JSR's fault (R89, R90). -/
def State.EndsWithin (s : State) (n : Nat) : Prop :=
  ∃ k t result, k ≤ n ∧ core.run k s = .next t ∧ t.run = .halted ∧
    t.replies = s.replies ++ [.ran result t.cyc] ∧
    ((result = .halted ∧ t.fault = none ∧ 1 - (s.cfg.maxCost : Int) ≤ t.cyc ∧ t.cyc ≤ 0) ∨
     (result = .error (.outOfRange 0x10000) ∧ t.fault = some (.outOfRange 0x10000)))

theorem core_run_zero (s : State) : core.run 0 s = .next s := rfl

/-- A run of one more step goes on from the state the first step answers. -/
theorem run_succ_of_step (M : Host.Core) {s t : M.State} (h : M.step s = .next t) (k : Nat) :
    M.run (k + 1) s = M.run k t := by
  simp only [Host.Core.run, h]

theorem core_run_succ {s t : State} (h : step s = .next t) (k : Nat) : core.run (k + 1) s = core.run k t :=
  run_succ_of_step core h k

theorem State.EndsWithin.mono {s : State} {m n : Nat} (h : s.EndsWithin m) (hle : m ≤ n) : s.EndsWithin n := by
  obtain ⟨k, t, result, hk, hrest⟩ := h
  exact ⟨k, t, result, hk.trans hle, hrest⟩

/-- A step that hands the host nothing puts the end off by one. -/
theorem State.EndsWithin.of_step {s t : State} {n : Nat} (hstep : step s = .next t) (hcfg : t.cfg = s.cfg)
    (hreplies : t.replies = s.replies) (h : t.EndsWithin n) : s.EndsWithin (n + 1) := by
  obtain ⟨k, u, result, hk, hrun, hrest⟩ := h
  rw [hcfg, hreplies] at hrest
  exact ⟨k + 1, u, result, Nat.succ_le_succ hk, (core_run_succ hstep k).trans hrun, hrest⟩

/-- With no budget left the next pass is the end. -/
theorem endsWithin_one_of_nonpos {s : State} (hinv : s.Inv) (hinit : s.init = true) (hrun : s.run = .running)
    (hc : s.cyc ≤ 0) : s.EndsWithin 1 := by
  obtain ⟨-, -, -, -, hgood⟩ := hinv
  obtain ⟨hfault, hlow⟩ := hgood hinit hrun
  exact ⟨1, s.endRun .halted, .halted, le_refl 1, core_run_succ (step_ends hinit hrun hc) 0, rfl, rfl,
    .inl ⟨rfl, hfault, hlow, hc⟩⟩

/-- A push that faults is the end. -/
theorem endsWithin_one_of_fault {s : State} {i : Instr} (hstep : step s = .next (effect i (s.fetched i.length)))
    (hf : pushFaults i (s.fetched i.length)) : s.EndsWithin 1 := by
  obtain ⟨hfault, hhalted, hreplies, hcyc⟩ := effect_faults hf
  refine ⟨1, _, .error (.outOfRange 65536), le_refl 1, core_run_succ hstep 0, hhalted, ?_, .inr ⟨rfl, hfault⟩⟩
  rw [hreplies, hcyc, State.fetched_replies]

/-- Every instruction that completes spends budget, so a run ends within as many instructions as it has budget units, and one
more pass. -/
theorem endsWithin_of_running {s : State} (hinv : s.Inv) (hinit : s.init = true) (hrun : s.run = .running) :
    s.EndsWithin (s.cyc.toNat + 1) := by
  induction hn : s.cyc.toNat using Nat.strong_induction_on generalizing s with
  | _ n ih =>
    by_cases hc : s.cyc ≤ 0
    · exact (endsWithin_one_of_nonpos hinv hinit hrun hc).mono (Nat.le_add_left ..)
    obtain ⟨i, rest, hd⟩ := window_decodes s
    have hexec : s.executing := ⟨hinit, hrun, not_le.mp hc⟩
    have hstep := step_eq_effect hexec hd
    by_cases hf : pushFaults i (s.fetched i.length)
    · exact (endsWithin_one_of_fault hstep hf).mono (Nat.le_add_left ..)
    obtain ⟨-, hrun', hreplies⟩ := effect_completes hf
    have hcost := i.one_le_cost s.cfg
    have hcyc := (effect_fetched_cyc hf).trans (narrow_sub_cost i hinv hexec)
    have hlt : (effect i (s.fetched i.length)).cyc.toNat < n := by omega
    have hend := ih _ hlt (effect_keeps_inv i hinv hexec) ((effect_init ..).trans hinit) (hrun'.trans hrun) rfl
    exact (hend.of_step hstep (effect_cfg ..) hreplies).mono (by omega)

/-- Between runs only a served run request starts a run. -/
theorem step_starts_run_iff {s t : State} (hinit : s.init = true) (hhalted : s.run = .halted) (h : step s = .next t) :
    t.run = .running ↔
      s.fault = none ∧ ∃ budget rest, s.requests = .run budget :: rest ∧ 0 < s.cfg.narrow budget := by
  cases hq : s.requests with
  | nil =>
    rw [step_host (not_running_of_halted hhalted), hostTurn_idle hq] at h
    cases h
    simp [hhalted]
  | cons r rest =>
    rw [step_serves_halted hinit hhalted hq] at h
    cases h
    by_cases hrun : ∃ b, r = .run b
    · obtain ⟨b, rfl⟩ := hrun
      exact (startRun_running_iff (s := { s with requests := rest }) hhalted b).trans (by simp)
    · have hnot : ∀ b, r ≠ .run b := not_exists.mp hrun
      have hstays : ({ s with requests := rest }.serveInit r).run = .halted := by
        by_cases hreset : r = .reset
        · subst hreset
          rfl
        · exact (serveInit_keeps_engine hreset hnot).1.trans hhalted
      simp [hstays, hnot]

/-- A run is left at the budget's end or by JSR's fault at the top of memory. -/
theorem step_leaves_run {s t : State} (hinit : s.init = true) (hrun : s.run = .running) (h : step s = .next t)
    (ht : t.run = .halted) :
    (s.cyc ≤ 0 ∧ t = s.endRun .halted) ∨ (s.sp = 0xFFFF ∧ t.fault = some (.outOfRange 0x10000)) := by
  obtain ⟨-, -, hc, rfl⟩ | ⟨-, i, _, -, he⟩ | ⟨hidle, -⟩ | ⟨hidle, -⟩ := step_next_cases h
  · exact .inl ⟨hc, rfl⟩
  · obtain rfl := eq_effect_of_exec he
    by_cases hf : pushFaults i (s.fetched i.length)
    · exact .inr ⟨hf.2, (effect_faults hf).1⟩
    · rw [(effect_completes hf).2.1, State.fetched_run, hrun] at ht
      cases ht
  · exact absurd ⟨hinit, hrun⟩ hidle
  · exact absurd ⟨hinit, hrun⟩ hidle

/-- The host's reads change the replies alone (R156). -/
theorem serveInit_reads_or_writes (s : State) (r : HostRequest) :
    s.serveInit r = { s with replies := (s.serveInit r).replies } ∨
      (r = .reset ∨ (∃ a v, r = .loadByte a v) ∨ (∃ q v, r = .writeByteReg q v) ∨ (∃ q v, r = .writeWordReg q v) ∨
        (∃ f v, r = .writeFlag f v) ∨ ∃ budget, r = .run budget) := by
  cases r with
  | readByte a =>
    left
    by_cases h : a < memSize
    · rw [State.serveInit, hostRead_done s h]
      rfl
    · rw [State.serveInit, hostRead_raised s (not_lt.mp h)]
      rfl
  | readByteReg r => exact .inl rfl
  | readWordReg r => exact .inl rfl
  | readFlag f => exact .inl rfl
  | reset => simp
  | loadByte a v => simp
  | writeByteReg q v => simp
  | writeWordReg q v => simp
  | writeFlag f v => simp
  | run budget => simp

/-- The state `k` unhandled bytes 0x00 leave: PC and CYC moved by `k`, and their reports. -/
def State.afterZeros (s : State) (k : Nat) : State :=
  { s with
    pc := s.pc + BitVec.ofNat 16 k
    cyc := s.cyc - (k : Int)
    reports := s.reports ++ (List.range k).map fun j => { op := 0x00, addr := s.pc + BitVec.ofNat 16 j } }

theorem afterZeros_zero (s : State) : s.afterZeros 0 = s := by
  simp [State.afterZeros]

theorem afterZeros_succ (s : State) (k : Nat) : (s.afterZeros 1).afterZeros k = s.afterZeros (k + 1) := by
  have hpc (j : Nat) : s.pc + 1#16 + BitVec.ofNat 16 j = s.pc + BitVec.ofNat 16 (j + 1) := by
    rw [BitVec.add_assoc, Nat.add_comm, BitVec.ofNat_add]
  have hcyc : s.cyc - 1 - (k : Int) = s.cyc - (k + 1 : Nat) := by
    push_cast
    omega
  simp [State.afterZeros, hpc, hcyc, List.range_succ_eq_map, Function.comp_def]

/-- A step of a run with 0x00 at PC, unhandled, whose cost the counter holds. -/
theorem step_of_zero_byte {s : State} (hrun : s.executing) (hb : s.cfg.bound 0x00 = false) (hzero : s.byteAt s.pc = 0x00)
    (hheld : s.cfg.narrow (s.cyc - 1) = s.cyc - 1) : step s = .next (s.afterZeros 1) := by
  rw [stepUnhandled s 0x00 hrun hzero hb, hheld]
  simp [State.afterZeros]

/-- One call below the top completes, moves SP up by two and writes the two bytes it pushes to. -/
theorem exec_jsr_of_fits (abs : Word) {s : State} (h : s.sp ≠ 0xFFFF) :
    ∃ t, exec (.jsr abs) s = .next t ∧ t.sp = s.sp + 2 ∧ t.fault = s.fault ∧
      ∀ b, b < s.sp.toNat ∨ s.sp.toNat + 2 ≤ b → t.mem.read b = s.mem.read b := by
  refine ⟨_, exec_eq_effect _ s, ?_, (effect_completes fun hf => h hf.2).1, fun b => jsrEffect_read_of_outside abs s⟩
  rw [effect, jsrEffect_completes abs h]
  rfl

end Sys2Proof.Machine
end

section
/-! SUPPORT. The statements about runs. -/

namespace Sys2Proof.Machine

/-- Settles O43: the pass's two cases, and the run request's own test of the budget it loads. -/
theorem budgetTestedBetweenInstructions : Obligations.BudgetTestedBetweenInstructions := by
  refine ⟨fun s hrun => ?_, fun s => step_ends, fun s budget rest hinit hhalted hf hq hb => ?_⟩
  · obtain ⟨i, rest, hd⟩ := window_decodes s
    exact ⟨i, rest, _, hd, exec_eq_effect i _, step_eq_effect hrun hd⟩
  · rw [step_serves_halted hinit hhalted hq]
    exact congrArg _ (startRun_ends (s := { s with requests := rest }) hf hb)

/-- Settles O44: the host's turn refuses the request, or serves it by one of a run request's cases. -/
theorem runRequest : Obligations.RunRequest := by
  intro s budget rest hq
  refine ⟨fun hinit => ?_, fun f hinit hhalted hf => ?_, fun hinit hhalted hf hb => ?_⟩
  · rw [step_host (by simp [hinit]), hostTurn_refuses hq (by simp) hinit]
  · rw [step_serves_halted hinit hhalted hq]
    exact congrArg _ (startRun_faulted (s := { s with requests := rest }) budget hf)
  · rw [step_serves_halted hinit hhalted hq]
    exact congrArg _ (startRun_starts (s := { s with requests := rest }) hf hb)

/-- Settles O45: the run starts with CYC 1, which the one instruction uses up, so the pass after it ends the run. -/
theorem budgetOneRunsOneInstruction : Obligations.BudgetOneRunsOneInstruction := by
  intro s rest hwide hinit hhalted hf hq
  have hone : s.cfg.narrow 1 = 1 := narrow_one hwide
  obtain ⟨-, -, hstarts⟩ := runRequest s 1 rest hq
  have hstart := hstarts hinit hhalted hf (by omega)
  rw [hone] at hstart
  have hrun : ({ s with requests := rest, cyc := 1, run := .running } : State).executing := ⟨hinit, rfl, Int.one_pos⟩
  obtain ⟨i, r, hd⟩ := window_decodes { s with requests := rest, cyc := 1, run := .running }
  have hcyc := effect_fetched_cyc_nonpos i (s := { s with requests := rest, cyc := 1, run := .running }) hwide rfl
  refine ⟨_, i, r, _, hstart, hrun, hd, exec_eq_effect i _, step_eq_effect hrun hd, hcyc, ?_⟩
  by_cases hfault : pushFaults i (State.fetched { s with requests := rest, cyc := 1, run := .running } i.length)
  · exact .inl (effect_faults hfault).2.1
  · exact .inr (step_ends ((effect_init ..).trans hinit) (effect_completes hfault).2.1 hcyc)

/-- Settles O46: the run request's cases on the way in, the cases of a run's step on the way out, and the reads between. -/
theorem onlyRunLeavesHalted : Obligations.OnlyRunLeavesHalted := by
  refine ⟨fun s t => step_starts_run_iff, fun s t => step_leaves_run, fun s t hinit hhalted h => ?_,
    fun s hhalted hq => ?_⟩
  · cases hq : s.requests with
    | nil =>
      rw [step_host (not_running_of_halted hhalted), hostTurn_idle hq] at h
      cases h
      exact .inl rfl
    | cons r rest =>
      rw [step_serves_halted hinit hhalted hq] at h
      cases h
      rw [(serveInit_frame { s with requests := rest } r).2.1]
      obtain he | hw := serveInit_reads_or_writes { s with requests := rest } r
      · exact .inl he
      · exact .inr ⟨r, rest, rfl, hw⟩
  · rw [step_host (not_running_of_halted hhalted), hostTurn_idle hq]

/-- Settles O47: by strong induction on the budget left (`endsWithin_of_running`). -/
theorem everyRunEnds : Obligations.EveryRunEnds := fun _ => endsWithin_of_running

/-- Settles O48: by induction on the number of steps, each the one-step rule of an unhandled opcode. -/
theorem unloadedMemoryRunsUnhandled : Obligations.UnloadedMemoryRunsUnhandled := by
  intro k
  induction k with
  | zero => exact fun s _ _ _ _ _ _ => (core_run_zero s).trans (congrArg _ (afterZeros_zero s).symm)
  | succ k ih =>
    intro s hinit hrun hb hmem hheld hk
    push_cast at hk
    have hnarrow : s.cfg.narrow (s.cyc - 1) = s.cyc - 1 := narrow_eq_self_of_nonneg_of_le hheld (by omega) (by omega)
    have hstep := step_of_zero_byte ⟨hinit, hrun, by omega⟩ hb (hmem _) hnarrow
    have hrest := ih (s.afterZeros 1) hinit hrun hb hmem hnarrow (show (k : Int) ≤ s.cyc - 1 by omega)
    exact (core_run_succ hstep k).trans (hrest.trans (congrArg _ (afterZeros_succ s k)))

/-- Settles O49: by induction on the targets; only the last call can bring SP to the end of memory. -/
theorem callsGrowStackByTwo : Obligations.CallsGrowStackByTwo := by
  intro targets
  induction targets with
  | nil =>
    intro s _
    exact ⟨s, rfl, by simp, rfl, fun _ _ => rfl⟩
  | cons abs targets ih =>
    intro s hfit
    rw [List.length_cons] at hfit ⊢
    have hsp : s.sp ≠ 0xFFFF := by bv_omega
    obtain ⟨t, he, htsp, htf, htm⟩ := exec_jsr_of_fits abs hsp
    have hnat : t.sp.toNat = s.sp.toNat + 2 ∨ t.sp.toNat = 0 ∧ targets.length = 0 := by
      rw [htsp]
      bv_omega
    obtain ⟨u, hu, husp, huf, hum⟩ := ih t (by omega)
    refine ⟨u, ?_, ?_, huf.trans htf, fun b hb => ?_⟩
    · simpa [execAll, he] using hu
    · rw [husp, htsp, Nat.mul_succ, Nat.add_comm, BitVec.ofNat_add, ← BitVec.add_assoc]
      rfl
    · rw [hum b (by omega), htm b (by omega)]

end Sys2Proof.Machine
end

section
/-! SUPPORT. Reset as a function of the parameters, and the host's register and flag accesses as reads of its writes
(R150, R151, R156). -/

namespace Sys2Proof.Machine

theorem performReset_performReset (s : State) : s.performReset.performReset = s.performReset := rfl

/-- Of the state before it, reset keeps only the parameters, CYC and the host's lists (R150, R151). -/
theorem performReset_eq_of_cfg_eq {s t : State} (h : s.cfg = t.cfg) :
    s.performReset =
      { t.performReset with cyc := s.cyc, requests := s.requests, replies := s.replies, reports := s.reports } := by
  simp only [State.performReset, State.initialise, State.setMem, h]

/-- A written byte register reads back, and the others read as before. -/
theorem getByteReg_setByteReg (s : State) (r q : ByteReg) (v : Byte) :
    (s.setByteReg r v).getByteReg q = if q = r then v else s.getByteReg q := by
  cases r <;> cases q <;> rfl

theorem getWordReg_setWordReg (s : State) (r q : WordReg) (v : Word) :
    (s.setWordReg r v).getWordReg q = if q = r then v else s.getWordReg q := by
  cases r <;> cases q <;> rfl

theorem getFlag_setFlag (s : State) (f g : FlagName) (v : Bool) :
    (s.setFlag f v).getFlag g = if g = f then v else s.getFlag g := by
  cases f <;> cases g <;> rfl

end Sys2Proof.Machine
end

section
/-! SUPPORT. The statements about reset and the host's accesses (R150 to R156). -/

namespace Sys2Proof.Machine

/-- Settles O50: with no run executing a reset at the head is served, and its fields are `performReset`'s. -/
theorem resetSetsEveryItem : Obligations.ResetSetsEveryItem := by
  intro s rest hq hidle
  have hnot : ¬ (s.init = true ∧ s.run = .running) := by
    obtain hinit | hhalted := hidle
    · simp [hinit]
    · exact not_running_of_halted hhalted
  refine ⟨_, step_serves hnot hq (.inl rfl), ?_⟩
  simp [State.serveInit, Memory.read_nil, Memory.unlisted]

/-- Settles O51: `performReset` writes every field but the ones named. -/
theorem resetForgetsTheState : Obligations.ResetForgetsTheState := fun s _ h =>
  ⟨performReset_eq_of_cfg_eq h, performReset_performReset s⟩

/-- Settles O52: each item is read off, and the reset state is a fixed point of reset. -/
theorem resetStateValues : Obligations.ResetStateValues :=
  ⟨rfl, rfl, rfl, rfl, rfl, rfl, rfl, rfl, Memory.read_nil, rfl⟩

/-- Settles O53: the host's turn refuses every request but reset, which it serves. -/
theorem refusedBeforeFirstReset : Obligations.RefusedBeforeFirstReset := by
  intro s r rest hinit hq
  have hnot : ¬ (s.init = true ∧ s.run = .running) := by simp [hinit]
  by_cases hr : r = .reset
  · rw [step_serves hnot hq (.inl hr)]
    simp [hr]
  · rw [step_host hnot, hostTurn_refuses hq hr hinit]
    simp [hr]

/-- Settles O54: the step is the request served, and each write is its update; what it wrote reads back. -/
theorem hostWritesReadBack : Obligations.HostWritesReadBack := by
  intro s rest hinit hhalted
  refine ⟨fun a v ha hq => ⟨s.mem.write a v, ?_, s.mem.read_write_same a v, fun b hb => s.mem.read_write_ne v hb⟩, ?_⟩
  · rw [step_serves_halted hinit hhalted hq]
    exact congrArg _ (hostLoad_done { s with requests := rest } v ha)
  refine ⟨fun v => ?_, fun v => ?_, fun v => ?_, fun v => ?_, fun v => ?_, fun v => ?_, fun v => ?_, fun v => ?_,
    fun v => ?_, fun v => ?_, fun v => ?_, fun v => ?_,
    getByteReg_setByteReg s, getWordReg_setWordReg s, getFlag_setFlag s⟩
  all_goals exact step_serves_halted hinit hhalted

/-- Settles O57: the step is the request served, and each read replies with the item it names. -/
theorem hostReadsAnswerAndChangeNothing : Obligations.HostReadsAnswerAndChangeNothing := by
  intro s rest hinit hhalted
  refine ⟨fun a ha hq => ?_, fun a v ha hq => ?_, fun r v hq hrv => ?_, fun r v hq hrv => ?_, fun f v hq hfv => ?_⟩
  · rw [step_serves_halted hinit hhalted hq]
    exact congrArg _ (hostRead_done { s with requests := rest } ha)
  · obtain hq | hq := hq
    · rw [step_serves_halted hinit hhalted hq]
      exact congrArg _ (hostRead_raised { s with requests := rest } ha)
    · rw [step_serves_halted hinit hhalted hq]
      exact congrArg _ (hostLoad_raised { s with requests := rest } v ha)
  · rw [step_serves_halted hinit hhalted hq]
    obtain ⟨rfl, rfl⟩ | ⟨rfl, rfl⟩ | ⟨rfl, rfl⟩ := hrv <;> rfl
  · rw [step_serves_halted hinit hhalted hq]
    obtain ⟨rfl, rfl⟩ | ⟨rfl, rfl⟩ := hrv <;> rfl
  · rw [step_serves_halted hinit hhalted hq]
    obtain ⟨rfl, rfl⟩ | ⟨rfl, rfl⟩ | ⟨rfl, rfl⟩ | ⟨rfl, rfl⟩ | ⟨rfl, rfl⟩ | ⟨rfl, rfl⟩ | ⟨rfl, rfl⟩ := hfv <;> rfl

end Sys2Proof.Machine
end
